-- ==== Sys2Proof/Word.lean ====
section
/-! DEFINITION. The word types of the block. -/

namespace Sys2Proof

/-- A 32-bit register, bus datum or command word (`XLEN_BUS` = 32, 00_scope.md R7). -/
abbrev Word := BitVec 32

/-- A 16-bit result code (30_encoding.md R82, R83, R85, R86). -/
abbrev Code := BitVec 16

/-- One byte of the message buffer (10_state.md R37). -/
abbrev Byte := BitVec 8

end Sys2Proof
end

