-- ==== Sys2Proof/Syntax.lean ====
section
/-! DEFINITION. The command set: one constructor per legal command word (30_encoding.md R74, opcode_table.json). -/

namespace Sys2Proof

/-- The ten legal commands of 30_encoding.md R74. A command carries no operand: operands come from registers (R76). -/
inductive Instr where
  /-- `nop`, 42_control.md R140. -/
  | nop
  /-- `qsfx.s0`, 40_quantizer.md R93 at k = 0. -/
  | qsfxS0
  /-- `qsfx.s8`, 40_quantizer.md R93 at k = 8 (`qtemp`). -/
  | qsfxS8
  /-- `qsfx.s12`, 40_quantizer.md R93 at k = 12 (`qvolt`). -/
  | qsfxS12
  /-- `qufx.s0`, 40_quantizer.md R94 at k = 0. -/
  | qufxS0
  /-- `qufx.s8`, 40_quantizer.md R94 at k = 8. -/
  | qufxS8
  /-- `qufx.s12`, 40_quantizer.md R94 at k = 12. -/
  | qufxS12
  /-- `quflt16`, 40_quantizer.md R96. -/
  | quflt16
  /-- `qsflt16`, 40_quantizer.md R97. -/
  | qsflt16
  /-- `build`, 41_buffer_encoder.md R120 to R132. -/
  | build
  deriving DecidableEq, Repr

end Sys2Proof
end

