-- ==== Sys2Proof/WellFormed.lean ====
section
/-! DEFINITION. Which commands are well formed: the conditions 30_encoding.md R70 to R75 put on the fields of a command word. -/

namespace Sys2Proof

/-- The three fields of a command word, the one format of 30_encoding.md R70. -/
structure Command where
  /-- Bits 31:10, reserved. -/
  rsv : BitVec 22
  /-- Bits 9:8, scale select. -/
  sc : BitVec 2
  /-- Bits 7:0, operation code. -/
  op : BitVec 8
  deriving DecidableEq, Repr

/-- "RSV (bits 31:10) must be 0" (30_encoding.md R73). -/
def Command.rsvZero (c : Command) : Bool := c.rsv == 0

/-- OP is one of the six operation codes of 30_encoding.md R71. -/
def Command.opDefined (c : Command) : Bool :=
  c.op == 0x00 || c.op == 0x01 || c.op == 0x02 || c.op == 0x03 || c.op == 0x04 || c.op == 0x10

/-- The operation takes a scale: QSFX and QUFX do, the others do not (30_encoding.md R72). -/
def Command.takesScale (c : Command) : Bool := c.op == 0x01 || c.op == 0x02

/-- SC = 0b11 is reserved, and an operation that takes no scale admits SC = 0b00 only (30_encoding.md R72). -/
def Command.scAllowed (c : Command) : Bool := if c.takesScale then c.sc != 0b11 else c.sc == 0b00

/-- The fields form a legal command (30_encoding.md R75). -/
def Command.wellFormed (c : Command) : Bool := c.rsvZero && c.opDefined && c.scAllowed

/-- A constructor of `Instr` carries no operand, so every one is well formed (30_encoding.md R76). -/
def Instr.wellFormed : Instr → Bool
  | .nop | .qsfxS0 | .qsfxS8 | .qsfxS12 | .qufxS0 | .qufxS8 | .qufxS12 | .quflt16 | .qsflt16 | .build => true

end Sys2Proof
end

