-- ==== Sys2Proof/Decode.lean ====
section
/-! DEFINITION. Decoding and encoding command words (30_encoding.md R70 to R76). -/

namespace Sys2Proof

/-- Why a word is no legal command: the four cases 30_encoding.md R75 lists. -/
inductive DecodeError where
  /-- A bit of RSV is set, whatever OP and SC (R73). -/
  | reservedBits
  /-- OP is none of the six operation codes (R71). -/
  | undefinedOp
  /-- SC = 0b11 with QSFX or QUFX (R72). -/
  | reservedScale
  /-- SC is not 0b00 with an operation that takes no scale (R72, D29). -/
  | scaleNotTaken
  deriving DecidableEq, Repr

/-- What a word written to CMD is: "every word is either one of the ten or illegal" (30_encoding.md R75). -/
inductive Decoded where
  | legal (i : Instr)
  | illegal (why : DecodeError)
  deriving DecidableEq, Repr

/-- The fields of a command word (30_encoding.md R70). -/
def Command.ofWord (w : Word) : Command :=
  { rsv := w.extractLsb' 10 22, sc := w.extractLsb' 8 2, op := w.extractLsb' 0 8 }

/-- The command word of given fields (30_encoding.md R70). -/
def Command.toWord (c : Command) : Word := c.rsv ++ c.sc ++ c.op

/-- SC for an operation that takes no scale (30_encoding.md R72, last paragraph). -/
def decodeUnscaled (sc : BitVec 2) (i : Instr) : Decoded :=
  if sc = 0b00 then .legal i else .illegal .scaleNotTaken

/-- SC for QSFX and QUFX: the table of 30_encoding.md R72. -/
def decodeScaled (sc : BitVec 2) (s0 s8 s12 : Instr) : Decoded :=
  if sc = 0b00 then .legal s0
  else if sc = 0b01 then .legal s8
  else if sc = 0b10 then .legal s12
  else .illegal .reservedScale

/-- The command that a word's fields select (30_encoding.md R71 to R73). -/
def decodeFields (c : Command) : Decoded :=
  if c.rsv ≠ 0 then .illegal .reservedBits
  else if c.op = 0x00 then decodeUnscaled c.sc .nop
  else if c.op = 0x01 then decodeScaled c.sc .qsfxS0 .qsfxS8 .qsfxS12
  else if c.op = 0x02 then decodeScaled c.sc .qufxS0 .qufxS8 .qufxS12
  else if c.op = 0x03 then decodeUnscaled c.sc .quflt16
  else if c.op = 0x04 then decodeUnscaled c.sc .qsflt16
  else if c.op = 0x10 then decodeUnscaled c.sc .build
  else .illegal .undefinedOp

/-- The decoder, total on every 32-bit word (30_encoding.md R75). -/
def decode (w : Word) : Decoded := decodeFields (Command.ofWord w)

/-- OP and SC of each command, RSV = 0: the table of 30_encoding.md R74. -/
def Instr.command : Instr → Command
  | .nop => { rsv := 0, sc := 0b00, op := 0x00 }
  | .qsfxS0 => { rsv := 0, sc := 0b00, op := 0x01 }
  | .qsfxS8 => { rsv := 0, sc := 0b01, op := 0x01 }
  | .qsfxS12 => { rsv := 0, sc := 0b10, op := 0x01 }
  | .qufxS0 => { rsv := 0, sc := 0b00, op := 0x02 }
  | .qufxS8 => { rsv := 0, sc := 0b01, op := 0x02 }
  | .qufxS12 => { rsv := 0, sc := 0b10, op := 0x02 }
  | .quflt16 => { rsv := 0, sc := 0b00, op := 0x03 }
  | .qsflt16 => { rsv := 0, sc := 0b00, op := 0x04 }
  | .build => { rsv := 0, sc := 0b00, op := 0x10 }

/-- The command word of an instruction (30_encoding.md R74). -/
def encode (i : Instr) : Word := i.command.toWord

/-- The command that the decoder reads from the table's bit number `w` of `nbits` bits, the bits above `nbits`
taken as 0. A command is one word (30_encoding.md R70) and the bus has no byte order (20_memory.md R60). -/
def decodeTableWord (nbits w : Nat) : Option Instr :=
  match decode (BitVec.ofNat 32 (w % 2 ^ nbits)) with
  | .legal i => some i
  | .illegal _ => none

end Sys2Proof
end

