-- ==== Sys2Proof/Config.lean ====
section
/-! DEFINITION. The implementation parameters of 00_scope.md R7. -/

namespace Sys2Proof

/-- The OPEN platform parameter: which 128-byte slot of the host's address space the window occupies
(20_memory.md R50, D5). It has no body, so nothing can be proved of its value. -/
opaque Config.baseIndex : Nat

/-- `WIN`, the size of the register window in bytes (00_scope.md R7). -/
def Config.windowBytes : Nat := 128

/-- `BASE`, the byte address of the register window: any multiple of 128 (00_scope.md R7, 20_memory.md R50). -/
def Config.base : Nat := Config.windowBytes * Config.baseIndex

/-- The one admitted access width in bytes (20_memory.md R53). -/
def Config.accessBytes : Nat := 4

/-- `BUF_MAX`, the buffer's capacity in bytes (00_scope.md R7, 10_state.md R39). -/
def Config.bufMax : Nat := 9

/-- `TAG`, the message format tag (00_scope.md R7, 10_state.md R31, D28). -/
def Config.tag : Byte := 0x2B

/-- `NAN_RESULT`, the result of a codec on a NaN operand (00_scope.md R7, 40_quantizer.md R99, D4). -/
def Config.nanResult : Code := 0x0000

end Sys2Proof
end

