-- ==== Sys2Proof/Machine/State.lean ====
section
/-! DEFINITION. The block's state, the host's pending accesses, the reasons a step stops, and reset. -/

namespace Sys2Proof.Machine

/-- What the host does to the block (60_exceptions.md R163). An access names its byte address by the displacement
`addr − BASE` (20_memory.md R50: the block decodes `off = addr − BASE`), an integer, so that every address of the
host's space can be named, those below the window too. `width` is the access width in bytes. -/
inductive HostEvent where
  /-- `MemRead(BASE + disp, width)`. -/
  | read (disp : Int) (width : Nat)
  /-- `MemWrite(BASE + disp, width, data)`. -/
  | write (disp : Int) (width : Nat) (data : Word)
  /-- The block's reset, applied between accesses (70_reset_and_hazards.md R170). -/
  | reset
  deriving DecidableEq, Repr

/-- The states of the buffer encoder's machine (10_state.md R40). -/
inductive BuildState where
  | idle | tag | placeholder | field0 | field1 | field2 | field3 | patch | done
  deriving DecidableEq, Repr

/-- The hidden state of the buffer encoder (10_state.md R40). -/
structure BuildUnit where
  /-- The machine's state `bs`. -/
  bs : BuildState
  /-- The write index `n`, 0 to 9. -/
  n : Nat
  /-- The accumulated flags `fl`. -/
  fl : Byte
  /-- The sticky OR of SAT over the fields. -/
  sat : Bool
  /-- The sticky OR of NAN over the fields. -/
  nan : Bool
  deriving DecidableEq, Repr

/-- The architectural state of 10_state.md R20 and R40, and the host's side of a run. CMD stores nothing (R25) and
FMT_TAG is a constant (R31), so neither has a field. -/
structure State where
  /-- STATUS: ILL bit 0, NAN bit 1, SAT bit 2 (10_state.md R26). -/
  status : BitVec 3
  /-- QIN (10_state.md R23). -/
  qin : Word
  /-- QOUT (10_state.md R24). -/
  qout : Code
  /-- REC_VALID (10_state.md R32). -/
  recValid : BitVec 4
  /-- REC_VBAT (10_state.md R33). -/
  recVbat : Word
  /-- REC_VBUS (10_state.md R33). -/
  recVbus : Word
  /-- REC_BOOT (10_state.md R34). -/
  recBoot : Byte
  /-- REC_TEMP (10_state.md R35). -/
  recTemp : Word
  /-- BUF_LEN (10_state.md R38). -/
  bufLen : BitVec 4
  /-- BUF0 to BUF8 (10_state.md R37). -/
  buf : Vector Byte 9
  /-- The buffer encoder's hidden state (10_state.md R40). -/
  build : BuildUnit
  /-- The model's input: what the host has still to do, in host issue order (20_memory.md R58, R63; log entry 3). -/
  pending : List HostEvent
  /-- The model's output: the values the host's reads returned, oldest first (60_exceptions.md R164; log entry 3). -/
  reads : List Word
  deriving DecidableEq, Repr

/-- The reasons a step faults: there is none. "The block raises no exception and takes no trap. No command, bus
access or operand value causes a transfer of control, a stall or a fault on the bus" (60_exceptions.md R150). -/
inductive Fault
  deriving DecidableEq, Repr

/-- The reasons the model refuses to go on. No instruction's meaning raises one; all but the first are accesses that
20_memory.md R53 refuses: "The block gives them no meaning, and a model refuses any host program that issues one". -/
inductive Refusal where
  /-- Raised by an arm of `exec` whose instruction has no meaning yet; no arm does. Safe: the model stops. -/
  | notModelled (mnemonic : String)
  /-- Raised by `step` for a read or write whose width is not 4 bytes (R53). Safe: the model stops. -/
  | accessWidth
  /-- Raised by `step` for a 32-bit access partly inside the window and partly outside (R53). Safe: the model stops. -/
  | crossesWindow
  /-- Raised by `step` for a 32-bit access wholly outside the window (R53). Safe: the model stops. -/
  | outsideWindow
  /-- Raised by `step` for a 32-bit access inside the window with `addr mod 4 ≠ 0` (R53). Safe: the model stops. -/
  | misaligned
  deriving DecidableEq, Repr

/-- The hidden state after reset: `bs` = IDLE (10_state.md R42). DESIGN CHOICE (log entry 1), unsafe: the spec gives
`n`, `fl`, `sat` and `nan` no reset value, and each is 0 here. -/
def BuildUnit.reset : BuildUnit := { bs := .idle, n := 0, fl := 0, sat := false, nan := false }

/-- The state after reset (10_state.md R42, 70_reset_and_hazards.md R170), with no access pending and no read made. -/
def State.reset : State :=
  { status := 0, qin := 0, qout := 0, recValid := 0, recVbat := 0, recVbus := 0, recBoot := 0, recTemp := 0,
    bufLen := 0, buf := Vector.replicate 9 0, build := BuildUnit.reset, pending := [], reads := [] }

end Sys2Proof.Machine
end

