-- ==== Sys2Proof/Machine/Flags.lean ====
section
/-! DEFINITION. STATUS and the flags the codecs report (10_state.md R26 to R30), and the saturating results of the
fixed-point codecs. -/

namespace Sys2Proof.Machine

/-- The STATUS register with given bits: ILL bit 0, NAN bit 1, SAT bit 2 (10_state.md R26). -/
def statusBits (ill nan sat : Bool) : BitVec 3 := BitVec.ofBool sat ++ BitVec.ofBool nan ++ BitVec.ofBool ill

/-- STATUS.ILL (10_state.md R29). -/
def State.ill (s : State) : Bool := s.status.getLsbD 0

/-- STATUS.NAN (10_state.md R28). -/
def State.nan (s : State) : Bool := s.status.getLsbD 1

/-- STATUS.SAT (10_state.md R27). -/
def State.sat (s : State) : Bool := s.status.getLsbD 2

/-- The triple `(h, sat, nan)` a codec returns (40_quantizer.md R90). -/
structure CodecResult where
  /-- The 16-bit code `h`. -/
  code : Code
  /-- A saturating branch was taken (10_state.md R27). -/
  sat : Bool
  /-- The operand was a NaN (10_state.md R28). -/
  nan : Bool
  deriving DecidableEq, Repr

/-- The NaN rule common to the codecs: `(NAN_RESULT, 0, 1)` (40_quantizer.md R99). -/
def nanCodec : CodecResult := { code := Config.nanResult, sat := false, nan := true }

/-- A saturating branch that returns the clamp code `h` (10_state.md R27). -/
def saturated (h : Code) : CodecResult := { code := h, sat := true, nan := false }

/-- A branch that returns a computed code. -/
def computed (h : Code) : CodecResult := { code := h, sat := false, nan := false }

/-- The range tests of SFX on the rounded integer, then `twos_16` (40_quantizer.md R93). -/
def saturateSigned (r : Int) : CodecResult :=
  if r > 32767 then saturated 0x7FFF
  else if r < -32768 then saturated 0x8000
  else computed (BitVec.ofInt 16 r)

/-- The range tests of UFX on the rounded integer, then its binary representation (40_quantizer.md R94). -/
def saturateUnsigned (r : Int) : CodecResult :=
  if r > 65535 then saturated 0xFFFF
  else if r < 0 then saturated 0x0000
  else computed (BitVec.ofInt 16 r)

end Sys2Proof.Machine
end

