-- ==== Sys2Proof/Machine/Operands.lean ====
section
/-! DEFINITION. Operands: binary32 patterns and the exact numbers they denote (30_encoding.md R80, R81), and the
rounding and decomposition primitives (40_quantizer.md R91, R92). Every finite binary32 value is a whole number of
quanta of 2^-149, so a value is held exactly as that integer and a scaled value as an exact fraction. -/

namespace Sys2Proof.Machine

/-- The sign bit `s = w[31]` (30_encoding.md R80). -/
def f32Sign (w : Word) : Bool := w.getLsbD 31

/-- The exponent field `E = w[30:23]` (30_encoding.md R80). -/
def f32Exp (w : Word) : Nat := (w.extractLsb' 23 8).toNat

/-- The fraction field `T = w[22:0]` (30_encoding.md R80). -/
def f32Frac (w : Word) : Nat := (w.extractLsb' 0 23).toNat

/-- `isNaN(w)`: E = 255, T ≠ 0 (30_encoding.md R81). -/
def isNaN (w : Word) : Bool := f32Exp w == 255 && f32Frac w != 0

/-- `isInf(w)`: E = 255, T = 0 (30_encoding.md R81). -/
def isInf (w : Word) : Bool := f32Exp w == 255 && f32Frac w == 0

/-- `isZero(w)`: E = 0, T = 0, either sign (30_encoding.md R81). -/
def isZero (w : Word) : Bool := f32Exp w == 0 && f32Frac w == 0

/-- `finite(w)`: E ≠ 255 (30_encoding.md R81). -/
def isFinite (w : Word) : Bool := f32Exp w != 255

/-- The number of quanta of 2^-149 in the value 1. -/
def quantaPerUnit : Nat := 2 ^ 149

/-- `|f32(w)|` of a finite pattern in quanta: `T × 2^-149` if E = 0, else `(2^23 + T) × 2^(E - 150)`
(30_encoding.md R80). -/
def f32Magnitude (w : Word) : Nat :=
  if f32Exp w = 0 then f32Frac w else (2 ^ 23 + f32Frac w) * 2 ^ (f32Exp w - 1)

/-- `f32(w)` of a finite pattern in quanta (30_encoding.md R80). Negative zero is 0, so it compares equal to 0 (R81). -/
def f32Quanta (w : Word) : Int := if f32Sign w then -(f32Magnitude w : Int) else (f32Magnitude w : Int)

/-- What a pattern denotes: an element of ℚ ∪ {+∞, −∞} ∪ {NaN} (30_encoding.md R80). -/
inductive Operand where
  /-- Every NaN, one class. -/
  | nan
  | negInf
  /-- The value `quanta × 2^-149`. -/
  | finite (quanta : Int)
  | posInf
  deriving DecidableEq, Repr

/-- `f32(w)` (30_encoding.md R80). -/
def f32 (w : Word) : Operand :=
  if isNaN w then .nan
  else if isInf w then (if f32Sign w then .negInf else .posInf)
  else .finite (f32Quanta w)

/-- `RHU(x) = floor(x + 1/2)` for the fraction `x = num / den` with `den > 0`, exactly (40_quantizer.md R91, D23):
`floor((2 num + den) / (2 den))`, where the division of integers by a positive one is floor division. -/
def rhu (num : Int) (den : Nat) : Int := (2 * num + den) / (2 * den)

/-- The result of `DECOMP`: a mantissa `m = num / den` and a power-of-two exponent `e` (40_quantizer.md R92). -/
structure Decomp where
  num : Nat
  den : Nat
  exp : Int
  deriving DecidableEq, Repr

/-- `DECOMP(a)` for `a = quanta × 2^-149 < 1` (40_quantizer.md R92): (0, 0) for 0 (D15), else the pair with
1/2 ≤ m < 1 and a = m × 2^e, read off the position of the leading bit. -/
def decomp (quanta : Nat) : Decomp :=
  if quanta = 0 then { num := 0, den := 1, exp := 0 }
  else { num := quanta, den := 2 ^ (quanta.log2 + 1), exp := (quanta.log2 : Int) + 1 - 149 }

end Sys2Proof.Machine
end

