-- ==== Sys2Proof/Machine/Codecs.lean ====
section
/-! DEFINITION. The four numeric codecs as pure functions of a binary32 pattern (40_quantizer.md R93 to R99). -/

namespace Sys2Proof.Machine

/-- `SFX(w, k)` (40_quantizer.md R93). `RHU(+∞) = +∞` exceeds 32767 and `RHU(−∞) = −∞` is below −32768. -/
def sfx (k : Nat) (w : Word) : CodecResult :=
  match f32 w with
  | .nan => nanCodec
  | .posInf => saturated 0x7FFF
  | .negInf => saturated 0x8000
  | .finite q => saturateSigned (rhu (q * 2 ^ k) quantaPerUnit)

/-- `UFX(w, k)` (40_quantizer.md R94). -/
def ufx (k : Nat) (w : Word) : CodecResult :=
  match f32 w with
  | .nan => nanCodec
  | .posInf => saturated 0xFFFF
  | .negInf => saturated 0x0000
  | .finite q => saturateUnsigned (rhu (q * 2 ^ k) quantaPerUnit)

/-- `VOLT(w) = SFX(w, 12)` (40_quantizer.md R98). -/
def volt (w : Word) : CodecResult := sfx 12 w

/-- `TEMP(w) = SFX(w, 8)` (40_quantizer.md R98). -/
def temp (w : Word) : CodecResult := sfx 8 w

/-- The rebiased exponent, a negative one clamped to 0 (40_quantizer.md R95). The fraction is not shifted (I9). -/
def rebias (e : Int) : Int := if e + 15 < 0 then 0 else e + 15

/-- `CF(a, fb)` for `a = quanta × 2^-149 < 1` (40_quantizer.md R95): the exponent and fraction fields, or none for
OVERFLOW. -/
def cf (fb : Nat) (quanta : Nat) : Option (Nat × Nat) :=
  let d := decomp quanta
  let ex := rebias d.exp
  let f := rhu (d.num * 2 ^ fb) d.den
  let carry := f ≥ 2 ^ fb
  let f' := if carry then 2 ^ (fb - 1) else f
  let ex' := if carry then ex + 1 else ex
  if ex' > 15 then none else some (ex'.toNat, f'.toNat)

/-- `UFLT(w)` (40_quantizer.md R96). -/
def uflt (w : Word) : CodecResult :=
  match f32 w with
  | .nan => nanCodec
  | .negInf => saturated 0x0000
  | .posInf => saturated 0xFFFF
  | .finite q =>
    if q < 0 then saturated 0x0000
    else if q ≥ quantaPerUnit then saturated 0xFFFF
    else
      match cf 12 q.toNat with
      | none => saturated 0xFFFF
      | some (ex, f) => computed (BitVec.ofNat 16 ex <<< 12 ||| BitVec.ofNat 16 f)

/-- `SFLT(w)`, sign and magnitude (40_quantizer.md R97, 90_conflicts.md C3). -/
def sflt (w : Word) : CodecResult :=
  match f32 w with
  | .nan => nanCodec
  | .negInf => saturated 0xFFFF
  | .posInf => saturated 0x7FFF
  | .finite q =>
    if q ≤ -(quantaPerUnit : Int) then saturated 0xFFFF
    else if q ≥ quantaPerUnit then saturated 0x7FFF
    else
      let sign : Code := if q < 0 then 0x8000 else 0x0000
      match cf 11 q.natAbs with
      | none => saturated (0x7FFF ||| sign)
      | some (ex, f) => computed (sign ||| BitVec.ofNat 16 ex <<< 11 ||| BitVec.ofNat 16 f)

end Sys2Proof.Machine
end

