-- ==== Sys2Proof/Machine/Ops.lean ====
section
/-! DEFINITION. The named operations over registers: the updates of each field, the register window
(20_memory.md R50 to R57), the register transport of the quantizer (40_quantizer.md R90), and reset.
There is no operation for taking an exception: the block has none (60_exceptions.md R150, R154, R155). -/

namespace Sys2Proof.Machine

def State.setStatus (s : State) (v : BitVec 3) : State := { s with status := v }
def State.setQin (s : State) (v : Word) : State := { s with qin := v }
def State.setQout (s : State) (v : Code) : State := { s with qout := v }
def State.setRecValid (s : State) (v : BitVec 4) : State := { s with recValid := v }
def State.setRecVbat (s : State) (v : Word) : State := { s with recVbat := v }
def State.setRecVbus (s : State) (v : Word) : State := { s with recVbus := v }
def State.setRecBoot (s : State) (v : Byte) : State := { s with recBoot := v }
def State.setRecTemp (s : State) (v : Word) : State := { s with recTemp := v }
def State.setBufLen (s : State) (v : BitVec 4) : State := { s with bufLen := v }
def State.setBuf (s : State) (v : Vector Byte 9) : State := { s with buf := v }
def State.setBuild (s : State) (v : BuildUnit) : State := { s with build := v }
def State.setPending (s : State) (v : List HostEvent) : State := { s with pending := v }
def State.setReads (s : State) (v : List Word) : State := { s with reads := v }

/-- The byte `BUF[i]` (10_state.md R37). The buffer has no byte at an index above 8; the window names none. -/
def State.bufByte (s : State) (i : Nat) : Byte := s.buf[i]?.getD 0

/-- Whether record field `i` is present, `REC_VALID[i]` (10_state.md R32). -/
def State.present (s : State) (i : Nat) : Bool := s.recValid.getLsbD i

/-- The registers of the window (20_memory.md R50). -/
inductive Reg where
  | cmd | status | qin | qout | recValid | recVbat | recVbus | recBoot | recTemp | bufLen | fmtTag
  /-- BUF0 to BUF8. -/
  | buf (i : Nat)
  /-- A reserved offset, RAZ/WI (R57). -/
  | reserved
  deriving DecidableEq, Repr

/-- The register at a word-aligned offset of the window: the map of 20_memory.md R50. -/
def Reg.ofOffset (off : Nat) : Reg :=
  match off with
  | 0x00 => .cmd
  | 0x04 => .status
  | 0x08 => .qin
  | 0x0C => .qout
  | 0x10 => .recValid
  | 0x14 => .recVbat
  | 0x18 => .recVbus
  | 0x1C => .recBoot
  | 0x20 => .recTemp
  | 0x24 => .bufLen
  | 0x28 => .fmtTag
  | 0x30 => .buf 0
  | 0x34 => .buf 1
  | 0x38 => .buf 2
  | 0x3C => .buf 3
  | 0x40 => .buf 4
  | 0x44 => .buf 5
  | 0x48 => .buf 6
  | 0x4C => .buf 7
  | 0x50 => .buf 8
  | _ => .reserved

/-- The value a read of a register returns: its held bits zero-extended (20_memory.md R56, R57; 10_state.md R20). -/
def Reg.read (s : State) : Reg → Word
  | .cmd => 0
  | .status => s.status.setWidth 32
  | .qin => s.qin
  | .qout => s.qout.setWidth 32
  | .recValid => s.recValid.setWidth 32
  | .recVbat => s.recVbat
  | .recVbus => s.recVbus
  | .recBoot => s.recBoot.setWidth 32
  | .recTemp => s.recTemp
  | .bufLen => s.bufLen.setWidth 32
  | .fmtTag => Config.tag.setWidth 32
  | .buf i => (s.bufByte i).setWidth 32
  | .reserved => 0

/-- A write to a register other than CMD: an RW register stores the bits it holds (20_memory.md R54), an RO register
ignores the write (R55), a reserved offset too (R57). CMD stores nothing (10_state.md R25); its command is
performed by `step`. -/
def Reg.write (s : State) (v : Word) : Reg → State
  | .qin => s.setQin v
  | .recValid => s.setRecValid (v.setWidth 4)
  | .recVbat => s.setRecVbat v
  | .recVbus => s.setRecVbus v
  | .recBoot => s.setRecBoot (v.setWidth 8)
  | .recTemp => s.setRecTemp v
  | .cmd | .status | .qout | .bufLen | .fmtTag | .buf _ | .reserved => s

/-- Whether an access is one the block admits, and the register it reaches. -/
inductive Admission where
  | admitted (r : Reg)
  | refused (why : Refusal)
  deriving DecidableEq, Repr

/-- 20_memory.md R53: 32-bit, inside the window, `addr mod 4 = 0`. BASE is a multiple of 128, so the address and its
displacement have the same remainder. DESIGN CHOICE (log entry 6), safe: where an access breaks more than one
condition, the refusal's name is that of the first in the order width, window, alignment. -/
def admission (disp : Int) (width : Nat) : Admission :=
  if width ≠ Config.accessBytes then .refused .accessWidth
  else if disp + Config.accessBytes ≤ 0 ∨ (Config.windowBytes : Int) ≤ disp then .refused .outsideWindow
  else if disp < 0 ∨ (Config.windowBytes : Int) < disp + Config.accessBytes then .refused .crossesWindow
  else if disp % 4 ≠ 0 then .refused .misaligned
  else .admitted (Reg.ofOffset disp.toNat)

/-- `MemRead(addr, n)` at a byte address of the host's space (00_scope.md R10): `off = addr − BASE` (20_memory.md R50). -/
def memRead (addr n : Nat) : HostEvent := .read ((addr : Int) - Config.base) n

/-- `MemWrite(addr, n, v)` at a byte address of the host's space (00_scope.md R10). -/
def memWrite (addr n : Nat) (v : Word) : HostEvent := .write ((addr : Int) - Config.base) n v

/-- The register transport of a quantizer command: `(h, sat, nan) <- CODEC(R[QIN])`, QOUT and STATUS written and
nothing else (40_quantizer.md R90). -/
def quantize (codec : Word → CodecResult) (s : State) : State :=
  let r := codec s.qin
  (s.setQout r.code).setStatus (statusBits false r.nan r.sat)

/-- A read appends the value it returns to the host's record of returned values and changes nothing else
(20_memory.md R56, 60_exceptions.md R164). -/
def State.returnRead (s : State) (v : Word) : State := s.setReads (s.reads ++ [v])

/-- Reset: "every register takes the reset value of 10_state.md rule R42, and the build state machine is IDLE"
(70_reset_and_hazards.md R170). What the host has still to do and what its reads returned are the host's and stay
(log entry 3). -/
def State.applyReset (s : State) : State := (State.reset.setPending s.pending).setReads s.reads

end Sys2Proof.Machine
end

