-- ==== Sys2Proof/Machine/BufferEncoder.lean ====
section
/-! DEFINITION. The command of unit BE: BUILD, by the buffer encoder's state machine (41_buffer_encoder.md R121). -/

namespace Sys2Proof.Machine

/-- Append one byte: `BUF[n] <- b; n <- n + 1` (41_buffer_encoder.md R122). -/
def appendByte (s : State) (b : Byte) : State :=
  (s.setBuf (s.buf.setIfInBounds s.build.n b)).setBuild { s.build with n := s.build.n + 1 }

/-- Append a 16-bit code big-endian: `BUF[n] <- h[15:8]; BUF[n+1] <- h[7:0]` (20_memory.md R61). -/
def appendCode (s : State) (h : Code) : State :=
  appendByte (appendByte s (h.extractLsb' 8 8)) (h.extractLsb' 0 8)

/-- Set flag bit `i`: `fl[i] <- 1` (41_buffer_encoder.md R121). -/
def setFlag (s : State) (i : Nat) : State :=
  s.setBuild { s.build with fl := s.build.fl ||| (1 : Byte) <<< i }

/-- Fold one field's `sat` and `nan` into the sticky bits (41_buffer_encoder.md R122, R126). -/
def stick (s : State) (r : CodecResult) : State :=
  s.setBuild { s.build with sat := s.build.sat || r.sat, nan := s.build.nan || r.nan }

/-- A two-byte field, if present: set its flag, append its code, fold its flags (41_buffer_encoder.md R121, R122). -/
def buildCodeField (s : State) (i : Nat) (r : CodecResult) : State :=
  if s.present i then stick (appendCode (setFlag s i) r.code) r else s

/-- The Boot field, if present: set its flag, append the raw byte (41_buffer_encoder.md R121, R123). -/
def buildByteField (s : State) (i : Nat) (b : Byte) : State :=
  if s.present i then appendByte (setFlag s i) b else s

/-- Go to state `bs`. -/
def enter (s : State) (bs : BuildState) : State := s.setBuild { s.build with bs := bs }

/-- State TAG: clear the buffer and the accumulators, write the format tag (41_buffer_encoder.md R121). -/
def buildTag (s : State) : State :=
  appendByte ((s.setBuf (Vector.replicate 9 0)).setBuild { s.build with n := 0, fl := 0, sat := false, nan := false })
    Config.tag

/-- State PATCH: `BUF[1] <- fl; BUF_LEN <- n; STATUS <- {ILL=0, NAN=nan, SAT=sat}` (41_buffer_encoder.md R121). -/
def buildPatch (s : State) : State :=
  ((s.setBuf (s.buf.setIfInBounds 1 s.build.fl)).setBufLen (BitVec.ofNat 4 s.build.n)).setStatus
    (statusBits false s.build.nan s.build.sat)

/-- One transition of the buffer encoder's machine: the table of 41_buffer_encoder.md R121. In IDLE it waits for a
command. DEDUCED (log entry 2), unsafe: DONE leaves `n`, `fl`, `sat` and `nan` as they are, for the table gives it no
action. No program can observe them. -/
def buildTransition (s : State) : State :=
  match s.build.bs with
  | .idle => s
  | .tag => enter (buildTag s) .placeholder
  | .placeholder => enter (appendByte s 0) .field0
  | .field0 => enter (buildCodeField s 0 (volt s.recVbat)) .field1
  | .field1 => enter (buildCodeField s 1 (volt s.recVbus)) .field2
  | .field2 => enter (buildByteField s 2 s.recBoot) .field3
  | .field3 => enter (buildCodeField s 3 (temp s.recTemp)) .patch
  | .patch => enter (buildPatch s) .done
  | .done => enter s .idle

/-- A number of transitions in a row. -/
def buildTransitions : Nat → State → State
  | 0, s => s
  | k + 1, s => buildTransitions k (buildTransition s)

/-- `build`: a CMD write of `build` starts the machine in TAG, and its eight transitions from there to IDLE happen in
one step (41_buffer_encoder.md R120, R121; 00_scope.md R11). -/
def execBuild (s : State) : Host.Outcome State Fault Refusal := .next (buildTransitions 8 (enter s .tag))

end Sys2Proof.Machine
end

