-- ==== Sys2Proof/Machine/Control.lean ====
section
/-! DEFINITION. The control command and the response to an illegal word (42_control.md R140, R141). -/

namespace Sys2Proof.Machine

/-- `nop`: STATUS is cleared (42_control.md R140). -/
def execNop (s : State) : Host.Outcome State Fault Refusal := .next (s.setStatus (statusBits false false false))

/-- An illegal command word: ILL = 1, NAN = 0, SAT = 0, and no other effect (42_control.md R141). -/
def execIllegal (s : State) : Host.Outcome State Fault Refusal := .next (s.setStatus (statusBits true false false))

end Sys2Proof.Machine
end

