-- ==== Sys2Proof/Machine/Quantizer.lean ====
section
/-! DEFINITION. The commands of unit Q (40_quantizer.md R90, R93, R94, R96, R97). -/

namespace Sys2Proof.Machine

/-- `qsfx.s0` (40_quantizer.md R93, k = 0). -/
def execQsfxS0 (s : State) : Host.Outcome State Fault Refusal := .next (quantize (sfx 0) s)

/-- `qsfx.s8` (40_quantizer.md R93, k = 8). -/
def execQsfxS8 (s : State) : Host.Outcome State Fault Refusal := .next (quantize (sfx 8) s)

/-- `qsfx.s12` (40_quantizer.md R93, k = 12). -/
def execQsfxS12 (s : State) : Host.Outcome State Fault Refusal := .next (quantize (sfx 12) s)

/-- `qufx.s0` (40_quantizer.md R94, k = 0). -/
def execQufxS0 (s : State) : Host.Outcome State Fault Refusal := .next (quantize (ufx 0) s)

/-- `qufx.s8` (40_quantizer.md R94, k = 8). -/
def execQufxS8 (s : State) : Host.Outcome State Fault Refusal := .next (quantize (ufx 8) s)

/-- `qufx.s12` (40_quantizer.md R94, k = 12). -/
def execQufxS12 (s : State) : Host.Outcome State Fault Refusal := .next (quantize (ufx 12) s)

/-- `quflt16` (40_quantizer.md R96). -/
def execQuflt16 (s : State) : Host.Outcome State Fault Refusal := .next (quantize uflt s)

/-- `qsflt16` (40_quantizer.md R97). -/
def execQsflt16 (s : State) : Host.Outcome State Fault Refusal := .next (quantize sflt s)

end Sys2Proof.Machine
end

