-- ==== Sys2Proof/Machine/Dispatch.lean ====
section
/-! DEFINITION. The meaning of each command, one arm per constructor. -/

namespace Sys2Proof.Machine

def exec (i : Instr) (s : State) : Host.Outcome State Fault Refusal :=
  match i with
  | .nop => Sys2Proof.Machine.execNop s
  | .qsfxS0 => Sys2Proof.Machine.execQsfxS0 s
  | .qsfxS8 => Sys2Proof.Machine.execQsfxS8 s
  | .qsfxS12 => Sys2Proof.Machine.execQsfxS12 s
  | .qufxS0 => Sys2Proof.Machine.execQufxS0 s
  | .qufxS8 => Sys2Proof.Machine.execQufxS8 s
  | .qufxS12 => Sys2Proof.Machine.execQufxS12 s
  | .quflt16 => Sys2Proof.Machine.execQuflt16 s
  | .qsflt16 => Sys2Proof.Machine.execQsflt16 s
  | .build => Sys2Proof.Machine.execBuild s

end Sys2Proof.Machine
end

