-- ==== Sys2Proof/Machine/Bus.lean ====
section
/-! DEFINITION. Bus accesses: what a read and a write of the window do (20_memory.md R53 to R58). -/

namespace Sys2Proof.Machine

/-- A write to CMD decodes the written word and performs it in the same step (10_state.md R25, 20_memory.md R58):
a legal word is its command, any other the illegal command (30_encoding.md R75). The word is not kept (R66). -/
def performCommand (w : Word) (s : State) : Host.Outcome State Fault Refusal :=
  match decode w with
  | .legal i => exec i s
  | .illegal _ => execIllegal s

/-- A bus read (20_memory.md R53, R56, R57). -/
def busRead (disp : Int) (width : Nat) (s : State) : Host.Outcome State Fault Refusal :=
  match admission disp width with
  | .refused why => .refused why
  | .admitted r => .next (s.returnRead (r.read s))

/-- A bus write (20_memory.md R53 to R55, R57, R58). -/
def busWrite (disp : Int) (width : Nat) (v : Word) (s : State) : Host.Outcome State Fault Refusal :=
  match admission disp width with
  | .refused why => .refused why
  | .admitted .cmd => performCommand v s
  | .admitted r => .next (r.write s v)

/-- What one event of the host does to the block (60_exceptions.md R163). -/
def perform (e : HostEvent) (s : State) : Host.Outcome State Fault Refusal :=
  match e with
  | .read disp width => busRead disp width s
  | .write disp width v => busWrite disp width v s
  | .reset => .next s.applyReset

end Sys2Proof.Machine
end

