-- ==== Sys2Proof/Machine/Step.lean ====
section
/-! DEFINITION. The step: the block performs the host's next access (00_scope.md R11, 20_memory.md R58). -/

namespace Sys2Proof.Machine

/-- One step: the oldest pending event of the host is taken and performed (20_memory.md R58, R63). DEDUCED (log entry
4), safe: with nothing pending "an idle block simply takes no step" (60_exceptions.md R164), and the state stays. -/
def step (s : State) : Host.Outcome State Fault Refusal :=
  match s.pending with
  | [] => .next s
  | e :: rest => perform e (s.setPending rest)

/-- The host is about to write the word to CMD: `MemWrite(BASE + 0x00, 4, w)` stands before all that is pending
(10_state.md R25; log entry 3). -/
def State.withFetchWord (s : State) (nbits w : Nat) : State :=
  s.setPending (.write 0 4 (BitVec.ofNat 32 (w % 2 ^ nbits)) :: s.pending)

end Sys2Proof.Machine
end

