-- ==== Sys2Proof/Machine/HostNotation.lean ====
section
/-! DEFINITION. The notation for the host's accesses and its pseudo-instructions (30_encoding.md R77, R78). -/

namespace Sys2Proof.Machine

/-- The window offset of a register (20_memory.md R50). A reserved offset has no register name (R77); 0x2C stands for
them here. -/
def Reg.offset : Reg → Nat
  | .cmd => 0x00
  | .status => 0x04
  | .qin => 0x08
  | .qout => 0x0C
  | .recValid => 0x10
  | .recVbat => 0x14
  | .recVbus => 0x18
  | .recBoot => 0x1C
  | .recTemp => 0x20
  | .bufLen => 0x24
  | .fmtTag => 0x28
  | .reserved => 0x2C
  | .buf i => 0x30 + 4 * i

/-- `wr <REG>, <imm32>` (30_encoding.md R77). -/
def wr (r : Reg) (v : Word) : HostEvent := memWrite (Config.base + r.offset) 4 v

/-- `rd <REG>` (30_encoding.md R77). -/
def rd (r : Reg) : HostEvent := memRead (Config.base + r.offset) 4

/-- `cmd <mnemonic>` (30_encoding.md R77). -/
def cmd (i : Instr) : HostEvent := wr .cmd (encode i)

/-- `cmd qvolt`, the voltage domain scaler (30_encoding.md R78). -/
def cmdQvolt : HostEvent := cmd .qsfxS12

/-- `cmd qtemp`, the temperature domain scaler (30_encoding.md R78). -/
def cmdQtemp : HostEvent := cmd .qsfxS8

/-- `clrrec`, the record reset to empty (30_encoding.md R78). -/
def clrrec : HostEvent := wr .recValid 0

/-- `setrec <mask>` with mask in 0..15 (30_encoding.md R78). -/
def setrec (mask : BitVec 4) : HostEvent := wr .recValid (mask.setWidth 32)

end Sys2Proof.Machine
end

