-- ==== Sys2Proof/Machine/Reference.lean ====
section
/-! DEFINITION. The spec's pseudocode word for word, over the rationals of 00_scope.md R9: the codecs of 40_quantizer.md
R91 to R99, BUILD's normative pseudocode of 41_buffer_encoder.md R122, the message of 30_encoding.md R87 and its
decoder. The step does not use this file: statements compare the machine with it. -/

namespace Sys2Proof.Machine

/-- ℚ ∪ {+∞, −∞} (00_scope.md R9). -/
inductive ExtRat where
  | negInf
  | fin (x : ℚ)
  | posInf
  deriving DecidableEq

/-- The order of the extended rationals (30_encoding.md R81: "±∞ compare as the extended reals do"). -/
def ExtRat.le : ExtRat → ExtRat → Prop
  | .negInf, _ => True
  | _, .posInf => True
  | .fin a, .fin b => a ≤ b
  | .fin _, .negInf => False
  | .posInf, .fin _ => False
  | .posInf, .negInf => False

/-- `f32(w)`, none for NaN (30_encoding.md R80). -/
def f32Value (w : Word) : Option ExtRat :=
  let s : ℕ := (f32Sign w).toNat
  let E := f32Exp w
  let T := f32Frac w
  if E = 255 ∧ T ≠ 0 then none
  else if E = 255 ∧ T = 0 then some (if s = 1 then .negInf else .posInf)
  else if E = 0 then some (.fin ((-1) ^ s * T * 2 ^ (-149 : ℤ)))
  else some (.fin ((-1) ^ s * (2 ^ 23 + T) * 2 ^ ((E : ℤ) - 150)))

/-- `RHU(x) = floor(x + 1/2)` of a rational (40_quantizer.md R91). -/
def roundHalfUp (x : ℚ) : ℤ := ⌊x + 1 / 2⌋

/-- `SFX(w, k)` (40_quantizer.md R93). -/
def sfxSpec (k : ℕ) (w : Word) : CodecResult :=
  match f32Value w with
  | none => ⟨0x0000, false, true⟩
  | some .posInf => ⟨0x7FFF, true, false⟩
  | some .negInf => ⟨0x8000, true, false⟩
  | some (.fin v) =>
    let r := roundHalfUp (v * 2 ^ k)
    if r > 32767 then ⟨0x7FFF, true, false⟩
    else if r < -32768 then ⟨0x8000, true, false⟩
    else ⟨BitVec.ofInt 16 r, false, false⟩

/-- `UFX(w, k)` (40_quantizer.md R94). -/
def ufxSpec (k : ℕ) (w : Word) : CodecResult :=
  match f32Value w with
  | none => ⟨0x0000, false, true⟩
  | some .posInf => ⟨0xFFFF, true, false⟩
  | some .negInf => ⟨0x0000, true, false⟩
  | some (.fin v) =>
    let r := roundHalfUp (v * 2 ^ k)
    if r > 65535 then ⟨0xFFFF, true, false⟩
    else if r < 0 then ⟨0x0000, true, false⟩
    else ⟨BitVec.ofInt 16 r, false, false⟩

/-- `DECOMP(a)` is the pair (m, e): (0, 0) for 0, else the unique pair with 1/2 ≤ m < 1 and a = m × 2^e
(40_quantizer.md R92). -/
def IsDecomp (a m : ℚ) (e : ℤ) : Prop :=
  (a = 0 ∧ m = 0 ∧ e = 0) ∨ (0 < a ∧ 1 / 2 ≤ m ∧ m < 1 ∧ a = m * 2 ^ e)

/-- The exponent `e` of `DECOMP(a)`: the one with 2^(e-1) ≤ a < 2^e, and 0 for 0 (40_quantizer.md R92). -/
def decompExp (a : ℚ) : ℤ := if a = 0 then 0 else Int.log 2 a + 1

/-- The mantissa `m` of `DECOMP(a)` (40_quantizer.md R92). -/
def decompMantissa (a : ℚ) : ℚ := a * 2 ^ (-decompExp a)

/-- `CF(a, fb)` (40_quantizer.md R95), none for OVERFLOW. -/
def cfSpec (fb : ℕ) (a : ℚ) : Option (ℤ × ℤ) :=
  let ex := decompExp a + 15
  let ex := if ex < 0 then 0 else ex
  let F := roundHalfUp (decompMantissa a * 2 ^ fb)
  let (F, ex) := if F ≥ 2 ^ fb then (2 ^ (fb - 1), ex + 1) else (F, ex)
  if ex > 15 then none else some (ex, F)

/-- `UFLT(w)` (40_quantizer.md R96). -/
def ufltSpec (w : Word) : CodecResult :=
  match f32Value w with
  | none => ⟨0x0000, false, true⟩
  | some .negInf => ⟨0x0000, true, false⟩
  | some .posInf => ⟨0xFFFF, true, false⟩
  | some (.fin v) =>
    if v < 0 then ⟨0x0000, true, false⟩
    else if v ≥ 1 then ⟨0xFFFF, true, false⟩
    else
      match cfSpec 12 v with
      | none => ⟨0xFFFF, true, false⟩
      | some (ex, F) => ⟨BitVec.ofInt 16 ex <<< 12 ||| BitVec.ofInt 16 F, false, false⟩

/-- `SFLT(w)` (40_quantizer.md R97). -/
def sfltSpec (w : Word) : CodecResult :=
  match f32Value w with
  | none => ⟨0x0000, false, true⟩
  | some .negInf => ⟨0xFFFF, true, false⟩
  | some .posInf => ⟨0x7FFF, true, false⟩
  | some (.fin v) =>
    if v ≤ -1 then ⟨0xFFFF, true, false⟩
    else if v ≥ 1 then ⟨0x7FFF, true, false⟩
    else
      let S : Code := if v < 0 then 0x8000 else 0x0000
      match cfSpec 11 |v| with
      | none => ⟨0x7FFF ||| S, true, false⟩
      | some (ex, F) => ⟨S ||| BitVec.ofInt 16 ex <<< 11 ||| BitVec.ofInt 16 F, false, false⟩

/-- The state a quantizer command with codec result `r` leaves: QOUT and STATUS written (40_quantizer.md R90). -/
def State.quantized (s : State) (r : CodecResult) : State :=
  { s with qout := r.code, status := statusBits false r.nan r.sat }

/-- The variables of BUILD's pseudocode (41_buffer_encoder.md R122). -/
structure BuildVars where
  buf : Vector Byte 9
  n : ℕ
  fl : Byte
  sat : Bool
  nan : Bool
  deriving DecidableEq, Repr

/-- A two-byte field of the pseudocode: `BUF[n] <- h[15:8]; BUF[n+1] <- h[7:0]; n <- n + 2; fl <- fl | bit;
sat <- sat | s; nan <- nan | q` (41_buffer_encoder.md R122). -/
def BuildVars.codeField (v : BuildVars) (bit : Byte) (r : CodecResult) : BuildVars :=
  { buf := (v.buf.setIfInBounds v.n (r.code.extractLsb' 8 8)).setIfInBounds (v.n + 1) (r.code.extractLsb' 0 8)
    n := v.n + 2, fl := v.fl ||| bit, sat := v.sat || r.sat, nan := v.nan || r.nan }

/-- The Boot field of the pseudocode (41_buffer_encoder.md R122). -/
def BuildVars.bootField (v : BuildVars) (b : Byte) : BuildVars :=
  { v with buf := v.buf.setIfInBounds v.n b, n := v.n + 1, fl := v.fl ||| 0x04 }

/-- BUILD's normative pseudocode, up to the writes of BUF_LEN and STATUS (41_buffer_encoder.md R122). -/
def buildSpec (s : State) : BuildVars :=
  let buf : Vector Byte 9 := Vector.replicate 9 0
  let v : BuildVars := { buf := (buf.setIfInBounds 0 0x2B).setIfInBounds 1 0x00, n := 2, fl := 0, sat := false, nan := false }
  let v := if s.recValid.getLsbD 0 then v.codeField 0x01 (sfxSpec 12 s.recVbat) else v
  let v := if s.recValid.getLsbD 1 then v.codeField 0x02 (sfxSpec 12 s.recVbus) else v
  let v := if s.recValid.getLsbD 2 then v.bootField s.recBoot else v
  let v := if s.recValid.getLsbD 3 then v.codeField 0x08 (sfxSpec 8 s.recTemp) else v
  { v with buf := v.buf.setIfInBounds 1 v.fl }

/-- A 16-bit code as two bytes, big-endian (20_memory.md R61). -/
def bigEndian (h : Code) : List Byte := [h.extractLsb' 8 8, h.extractLsb' 0 8]

/-- The bytes of the present fields in increasing bit order, none for an absent field (30_encoding.md R87,
41_buffer_encoder.md R131). -/
def fieldBytes (s : State) : List Byte :=
  (if s.present 0 then bigEndian (sfxSpec 12 s.recVbat).code else []) ++
  (if s.present 1 then bigEndian (sfxSpec 12 s.recVbus).code else []) ++
  (if s.present 2 then [s.recBoot] else []) ++
  (if s.present 3 then bigEndian (sfxSpec 8 s.recTemp).code else [])

/-- The message of the record: the tag, the flags byte, the fields (30_encoding.md R87). -/
def message (s : State) : List Byte := 0x2B :: s.recValid.setWidth 8 :: fieldBytes s

/-- The bytes the host collects: BUF0 to BUF(BUF_LEN − 1) (60_exceptions.md R163). -/
def State.collected (s : State) : List Byte := s.buf.toList.take s.bufLen.toNat

/-- What a message says: the code or raw byte of each present field. -/
structure Reading where
  vbat : Option Code
  vbus : Option Code
  boot : Option Byte
  temp : Option Code
  deriving DecidableEq, Repr

/-- Take a two-byte big-endian field from the front of a message, if its flag is set. -/
def takeCode (flag : Bool) (bytes : List Byte) : Option (Option Code × List Byte) :=
  if flag then
    match bytes with
    | hi :: lo :: rest => some (some (hi ++ lo), rest)
    | _ => none
  else some (none, bytes)

/-- Take a one-byte field from the front of a message, if its flag is set. -/
def takeByte (flag : Bool) (bytes : List Byte) : Option (Option Byte × List Byte) :=
  if flag then
    match bytes with
    | b :: rest => some (some b, rest)
    | [] => none
  else some (none, bytes)

/-- A decoder of the message, which "reads the flags byte and then walks the fields in bit order, taking 2, 2, 1 and
2 bytes for bits 0, 1, 2 and 3 when each is set" (30_encoding.md R87). A byte too few or left over is no message. -/
def parseMessage : List Byte → Option Reading
  | tag :: flags :: bytes =>
    if tag = 0x2B ∧ flags.extractLsb' 4 4 = 0 then
      (takeCode (flags.getLsbD 0) bytes).bind fun (vbat, bytes) =>
      (takeCode (flags.getLsbD 1) bytes).bind fun (vbus, bytes) =>
      (takeByte (flags.getLsbD 2) bytes).bind fun (boot, bytes) =>
      (takeCode (flags.getLsbD 3) bytes).bind fun (temp, bytes) =>
      if bytes = [] then some { vbat, vbus, boot, temp } else none
    else none
  | _ => none

end Sys2Proof.Machine
end

