-- ==== Sys2Proof/Safety.lean ====
section
/-! DEFINITION. What counts as a safe run, and the invariant of the block, in the terms the statements use. -/

namespace Sys2Proof.Machine

/-- The event is one the block gives a meaning: a reset, or a 32-bit access with `addr` in the window and
`addr mod 4 = 0` (20_memory.md R53). -/
def HostEvent.isAdmitted : HostEvent → Bool
  | .read disp width => width == 4 && decide (0 ≤ disp) && decide (disp ≤ 0x7F) && disp % 4 == 0
  | .write disp width _ => width == 4 && decide (0 ≤ disp) && decide (disp ≤ 0x7F) && disp % 4 == 0
  | .reset => true

/-- A safe program: every event the host has still to issue is admitted (20_memory.md R53, 60_exceptions.md R163). -/
def State.safe (s : State) : Bool := s.pending.all HostEvent.isAdmitted

/-- The encoded widths of the fields a flags byte marks present: 2, 2, 1 and 2 bytes (10_state.md R36). -/
def fieldWidths (flags : Byte) : Nat :=
  2 * (flags.getLsbD 0).toNat + 2 * (flags.getLsbD 1).toNat + (flags.getLsbD 2).toNat + 2 * (flags.getLsbD 3).toNat

/-- No buffer has been built since reset: BUF_LEN = 0 and every byte 0x00 (10_state.md R38, R42). -/
def State.bufferEmpty (s : State) : Prop := s.bufLen = 0 ∧ s.buf = Vector.replicate 9 0

/-- The buffer holds a message: the tag, a flags byte with bits 7:4 zero, BUF_LEN = 2 + the widths of the present
fields, and 0x00 from BUF_LEN on (30_encoding.md R87, 10_state.md R37, R39). -/
def State.bufferBuilt (s : State) : Prop :=
  s.bufByte 0 = Config.tag ∧ (s.bufByte 1).extractLsb' 4 4 = 0 ∧
    s.bufLen.toNat = 2 + fieldWidths (s.bufByte 1) ∧ ∀ i, s.bufLen.toNat ≤ i → s.bufByte i = 0

/-- The invariant: between steps the build machine is IDLE and its index at most 9 (10_state.md R40), ILL excludes NAN
and SAT (60_exceptions.md R153), and the buffer is empty or holds a message. -/
def State.Inv (s : State) : Prop :=
  s.build.bs = .idle ∧ s.build.n ≤ 9 ∧ (s.ill = true → s.nan = false ∧ s.sat = false) ∧
    (s.bufferEmpty ∨ s.bufferBuilt)

end Sys2Proof.Machine
end

