-- ==== Sys2Proof/Certificates/Slice0/Obligations.lean ====
section
/-! DEFINITION. The statements for the provers. Each docstring names the rule of spec/ it formalises. -/

open Sys2Proof Sys2Proof.Machine

/-! Encoding -/

/-- 30_encoding.md R74, R75: the decoder and the encoder agree on every 32-bit word, and the ten words are the
table's. -/
def Obligations.DecodeEncodeAgree : Prop :=
  (∀ (w : Word) (i : Instr), decode w = .legal i ↔ w = encode i) ∧
  encode .nop = 0x00000000 ∧ encode .qsfxS0 = 0x00000001 ∧ encode .qsfxS8 = 0x00000101 ∧
  encode .qsfxS12 = 0x00000201 ∧ encode .qufxS0 = 0x00000002 ∧ encode .qufxS8 = 0x00000102 ∧
  encode .qufxS12 = 0x00000202 ∧ encode .quflt16 = 0x00000003 ∧ encode .qsflt16 = 0x00000004 ∧
  encode .build = 0x00000010

/-- 30_encoding.md R71 to R73: a word is a legal command exactly when its fields are well formed. -/
def Obligations.LegalIffFieldsWellFormed : Prop :=
  ∀ w : Word, (∃ i, decode w = .legal i) ↔ (Command.ofWord w).wellFormed = true

/-- 30_encoding.md R73: a word with any RSV bit set is illegal, whatever its OP and SC. -/
def Obligations.ReservedBitsMakeIllegal : Prop :=
  ∀ w : Word, (∃ b, 10 ≤ b ∧ b ≤ 31 ∧ w.getLsbD b = true) → ∃ why, decode w = .illegal why

/-- 30_encoding.md R74: words of the table, one or more for each family, decode to their commands. -/
def Obligations.TableWordsDecode : Prop :=
  decode 0x00000000 = .legal .nop ∧ decode 0x00000201 = .legal .qsfxS12 ∧ decode 0x00000102 = .legal .qufxS8 ∧
  decode 0x00000003 = .legal .quflt16 ∧ decode 0x00000004 = .legal .qsflt16 ∧ decode 0x00000010 = .legal .build

/-! Steps and bus accesses -/

/-- A step performs the host's oldest pending event and takes it off the queue, and with nothing pending the state
stays. The queue and the idle step are the model's own (log entries 3 and 4). -/
def Obligations.StepPerformsOldestEvent : Prop :=
  (∀ (s : State) (e : HostEvent) (rest : List HostEvent), s.pending = e :: rest →
    step s = perform e (s.setPending rest)) ∧
  ∀ s : State, s.pending = [] → step s = .next s

/-- A step runs the decoded command: when the pending event is a 32-bit write to CMD (offset 0x00) of a word that
decodes to `i`, the step is `exec i` of the state with the event taken off the queue (10_state.md R25; the queue is the
model's own, log entry 3). -/
def Obligations.StepRunsDecodedCommand : Prop :=
  ∀ (s : State) (rest : List HostEvent) (w : Word) (i : Instr),
    s.pending = memWrite (Config.base + 0x00) 4 w :: rest → decode w = .legal i →
    step s = exec i (s.setPending rest)

/-- 42_control.md R141: a write to CMD of any other word sets ILL, clears NAN and SAT and does nothing else. -/
def Obligations.IllegalWordOnlySetsIll : Prop :=
  ∀ (s : State) (w : Word),
    w ∉ ([0x00000000, 0x00000001, 0x00000101, 0x00000201, 0x00000002, 0x00000102, 0x00000202, 0x00000003,
      0x00000004, 0x00000010] : List Word) →
    perform (memWrite (Config.base + 0x00) 4 w) s = .next (s.setStatus 0b001)

/-- 20_memory.md R53: exactly the aligned 32-bit accesses in the window are admitted; any other read or write is
refused, in every state. -/
def Obligations.AdmittedAccessesAreAlignedWords : Prop :=
  ∀ (s : State) (addr n : ℕ) (v : Word),
    let ok := n = 4 ∧ Config.base ≤ addr ∧ addr ≤ Config.base + 0x7F ∧ addr % 4 = 0
    (ok → (∃ t, perform (memRead addr n) s = .next t) ∧ ∃ t, perform (memWrite addr n v) s = .next t) ∧
    (¬ok → (∃ why, perform (memRead addr n) s = .refused why) ∧ ∃ why, perform (memWrite addr n v) s = .refused why)

/-- The names of the refusals of a read and of a write, one for each way an access is not admitted; which name an access
with several faults gets is the model's choice (log entry 6). -/
def Obligations.RefusalNames : Prop :=
  ∀ (s : State) (addr n : ℕ) (v : Word),
    let refusedAs := fun why => perform (memRead addr n) s = .refused why ∧ perform (memWrite addr n v) s = .refused why
    (n ≠ 4 → refusedAs .accessWidth) ∧
    (n = 4 → addr + 4 ≤ Config.base ∨ Config.base + 128 ≤ addr → refusedAs .outsideWindow) ∧
    (n = 4 → (addr < Config.base ∧ Config.base < addr + 4) ∨
        (addr < Config.base + 128 ∧ Config.base + 128 < addr + 4) → refusedAs .crossesWindow) ∧
    (n = 4 → Config.base ≤ addr → addr + 4 ≤ Config.base + 128 → addr % 4 ≠ 0 → refusedAs .misaligned)

/-- 20_memory.md R56 over the map of R50: a read of each register returns its held bits zero-extended, CMD reads 0, and
the read changes nothing of the block. The value returned is the one appended to the host's record (log entry 3). -/
def Obligations.ReadsReturnHeldBits : Prop :=
  ∀ s : State,
    let rd := fun off => perform (memRead (Config.base + off) 4) s
    rd 0x00 = .next (s.returnRead 0x00000000) ∧
    rd 0x04 = .next (s.returnRead (s.status.zeroExtend 32)) ∧
    rd 0x08 = .next (s.returnRead s.qin) ∧
    rd 0x0C = .next (s.returnRead (s.qout.zeroExtend 32)) ∧
    rd 0x10 = .next (s.returnRead (s.recValid.zeroExtend 32)) ∧
    rd 0x14 = .next (s.returnRead s.recVbat) ∧
    rd 0x18 = .next (s.returnRead s.recVbus) ∧
    rd 0x1C = .next (s.returnRead (s.recBoot.zeroExtend 32)) ∧
    rd 0x20 = .next (s.returnRead s.recTemp) ∧
    rd 0x24 = .next (s.returnRead (s.bufLen.zeroExtend 32)) ∧
    rd 0x28 = .next (s.returnRead 0x0000002B) ∧
    (∀ i : Fin 9, rd (0x30 + 4 * i) = .next (s.returnRead (s.buf[i].zeroExtend 32)))

/-- 20_memory.md R57: a reserved offset (0x2C, 0x54 to 0x7C) reads 0 and ignores writes, and neither access changes the
block. -/
def Obligations.ReservedOffsetsReadZeroIgnoreWrites : Prop :=
  ∀ (s : State) (v : Word) (off : ℕ), off % 4 = 0 → (off = 0x2C ∨ (0x54 ≤ off ∧ off ≤ 0x7C)) →
    perform (memRead (Config.base + off) 4) s = .next (s.returnRead 0x00000000) ∧
    perform (memWrite (Config.base + off) 4 v) s = .next s

/-- 20_memory.md R54: a write to an RW register stores the bits the register holds and has no other effect. -/
def Obligations.WritesStoreHeldBits : Prop :=
  ∀ (s : State) (v : Word),
    let wr := fun off => perform (memWrite (Config.base + off) 4 v) s
    wr 0x08 = .next { s with qin := v } ∧
    wr 0x10 = .next { s with recValid := v.extractLsb' 0 4 } ∧
    wr 0x14 = .next { s with recVbat := v } ∧
    wr 0x18 = .next { s with recVbus := v } ∧
    wr 0x1C = .next { s with recBoot := v.extractLsb' 0 8 } ∧
    wr 0x20 = .next { s with recTemp := v }

/-- 20_memory.md R55: a write to STATUS, QOUT, BUF_LEN, FMT_TAG or BUF0 to BUF8 changes no state. -/
def Obligations.ReadOnlyWritesIgnored : Prop :=
  ∀ (s : State) (v : Word),
    let wr := fun off => perform (memWrite (Config.base + off) 4 v) s
    wr 0x04 = .next s ∧ wr 0x0C = .next s ∧ wr 0x24 = .next s ∧ wr 0x28 = .next s ∧
    ∀ i : Fin 9, wr (0x30 + 4 * i) = .next s

/-- 10_state.md R31: FMT_TAG reads 0x2B in every state, ignores writes, and is what BUILD writes to byte 0. -/
def Obligations.FormatTagIsConstant : Prop :=
  ∀ (s : State) (v : Word),
    Reg.ofOffset 0x28 = .fmtTag ∧ Reg.read s .fmtTag = 0x0000002B ∧
    perform (memWrite (Config.base + 0x28) 4 v) s = .next s ∧
    ∃ t, exec .build s = .next t ∧ t.buf[0] = 0x2B

/-- Every event keeps the queue of what is still pending; a read appends one value to the host's record and changes
nothing else (20_memory.md R56: no read changes any state); a write or a reset leaves the record. Queue and record are
the model's own (log entry 3). -/
def Obligations.EventsKeepHostSide : Prop :=
  ∀ (e : HostEvent) (s t : State), perform e s = .next t →
    t.pending = s.pending ∧
    match e with
    | .read _ _ => ∃ v, t = { s with reads := s.reads ++ [v] }
    | .write _ _ _ => t.reads = s.reads
    | .reset => t.reads = s.reads

/-- 30_encoding.md R78 (in the notation of R77): the pseudo-instructions are the accesses they expand to. -/
def Obligations.PseudoInstructionsExpand : Prop :=
  cmdQvolt = memWrite (Config.base + 0x00) 4 0x00000201 ∧ cmdQtemp = memWrite (Config.base + 0x00) 4 0x00000101 ∧
  clrrec = memWrite (Config.base + 0x10) 4 0x00000000 ∧
  (∀ mask : BitVec 4, setrec mask = memWrite (Config.base + 0x10) 4 (mask.zeroExtend 32)) ∧
  (∀ s : State, perform clrrec s = .next { s with recValid := 0 }) ∧
  ∀ (s : State) (mask : BitVec 4), perform (setrec mask) s = .next { s with recValid := mask }

/-! Reset -/

/-- 10_state.md R42: the reset values; FMT_TAG reads 0x2B always and CMD stores nothing. -/
def Obligations.ResetValues : Prop :=
  State.reset.status = 0 ∧ State.reset.qin = 0x00000000 ∧ State.reset.qout = 0x0000 ∧
  State.reset.recValid = 0 ∧ State.reset.recVbat = 0x00000000 ∧ State.reset.recVbus = 0x00000000 ∧
  State.reset.recTemp = 0x00000000 ∧ State.reset.recBoot = 0x00 ∧
  (∀ i : Fin 9, State.reset.buf[i] = 0x00) ∧ State.reset.bufLen = 0 ∧ State.reset.build.bs = .idle ∧
  ∀ s : State, Reg.read s .fmtTag = 0x2B ∧ Reg.read s .cmd = 0 ∧
    ∀ v : Word, Reg.write s v .cmd = s

/-- 70_reset_and_hazards.md R170: reset, from any state, gives every register its reset value and leaves the build
machine IDLE. -/
def Obligations.ResetRestoresEveryRegister : Prop :=
  ∀ s : State, ∃ t, perform .reset s = .next t ∧
    t.status = 0 ∧ t.qin = 0 ∧ t.qout = 0 ∧ t.recValid = 0 ∧ t.recVbat = 0 ∧ t.recVbus = 0 ∧ t.recBoot = 0 ∧
    t.recTemp = 0 ∧ t.bufLen = 0 ∧ (∀ i : Fin 9, t.buf[i] = 0x00) ∧ t.build.bs = .idle

/-! Control -/

/-- 42_control.md R140: NOP clears the three STATUS bits and changes nothing else; its word is 0x00000000 and no other
word with OP = 0x00 is legal. -/
def Obligations.NopClearsStatusOnly : Prop :=
  (∀ s : State, exec .nop s = .next { s with status := 0b000 }) ∧
  decode 0x00000000 = .legal .nop ∧
  ∀ w : Word, w.extractLsb' 0 8 = 0x00 → w ≠ 0x00000000 → ∃ why, decode w = .illegal why

/-! The quantizer -/

/-- 30_encoding.md R80: the operand the machine reads from a pattern is the exact value of the pattern, held in quanta
of 2^-149. -/
def Obligations.OperandsAreExactValues : Prop :=
  ∀ w : Word, f32Value w =
    match f32 w with
    | .nan => none
    | .negInf => some .negInf
    | .posInf => some .posInf
    | .finite q => some (.fin ((q : ℚ) / 2 ^ 149))

/-- 40_quantizer.md R91: the machine's rounding of a fraction is floor(x + 1/2) of the exact rational; ties go up. -/
def Obligations.RoundingIsHalfUp : Prop :=
  (∀ (num : ℤ) (den : ℕ), 0 < den → rhu num den = ⌊(num : ℚ) / den + 1 / 2⌋) ∧
  rhu 1 2 = 1 ∧ rhu (-1) 2 = 0 ∧ rhu 3 2 = 2 ∧ rhu (-3) 2 = -1 ∧ rhu 5 2 = 3 ∧ rhu (-5) 2 = -2

/-- 40_quantizer.md R92: a rational in [0, 1) has exactly one decomposition, the reference pseudocode gives it, and so
does the machine on every value a pattern can have there, with −148 ≤ e ≤ 0 for a non-zero one. -/
def Obligations.DecompositionIsUnique : Prop :=
  (∀ a : ℚ, 0 ≤ a → a < 1 → IsDecomp a (decompMantissa a) (decompExp a) ∧ decompExp a ≤ 0 ∧
    ∀ m e, IsDecomp a m e → m = decompMantissa a ∧ e = decompExp a) ∧
  ∀ q : ℕ, q < 2 ^ 149 →
    IsDecomp ((q : ℚ) / 2 ^ 149) (((decomp q).num : ℚ) / (decomp q).den) (decomp q).exp ∧
    -148 ≤ (decomp q).exp ∧ (decomp q).exp ≤ 0

/-- 40_quantizer.md R90: each quantizer command is a codec, a function of QIN alone, whose result goes to QOUT and
STATUS, with ILL = 0, and which writes nothing else. -/
def Obligations.QuantizerTransport : Prop :=
  ∀ i ∈ [Instr.qsfxS0, .qsfxS8, .qsfxS12, .qufxS0, .qufxS8, .qufxS12, .quflt16, .qsflt16],
    ∃ codec : Word → CodecResult, ∀ s : State,
      exec i s = .next { s with qout := (codec s.qin).code, status := statusBits false (codec s.qin).nan (codec s.qin).sat }

/-- 40_quantizer.md R93 (with R90's transport): QSFX at the three scales, in every state: QOUT and STATUS get the exact
codec's result, nothing else changes; the words and the example. -/
def Obligations.QsfxQuantizesExactly : Prop :=
  (∀ s : State,
    exec .qsfxS0 s = .next (s.quantized (sfxSpec 0 s.qin)) ∧
    exec .qsfxS8 s = .next (s.quantized (sfxSpec 8 s.qin)) ∧
    exec .qsfxS12 s = .next (s.quantized (sfxSpec 12 s.qin))) ∧
  decode 0x00000001 = .legal .qsfxS0 ∧ decode 0x00000101 = .legal .qsfxS8 ∧ decode 0x00000201 = .legal .qsfxS12 ∧
  ∀ s : State, s.qin = 0x40533333 → exec .qsfxS12 s = .next { s with qout := 0x34CD, status := 0 }

/-- 40_quantizer.md R94 (with R90's transport): QUFX at the three scales, in every state; the words and the example. -/
def Obligations.QufxQuantizesExactly : Prop :=
  (∀ s : State,
    exec .qufxS0 s = .next (s.quantized (ufxSpec 0 s.qin)) ∧
    exec .qufxS8 s = .next (s.quantized (ufxSpec 8 s.qin)) ∧
    exec .qufxS12 s = .next (s.quantized (ufxSpec 12 s.qin))) ∧
  decode 0x00000002 = .legal .qufxS0 ∧ decode 0x00000102 = .legal .qufxS8 ∧ decode 0x00000202 = .legal .qufxS12 ∧
  ∀ s : State, s.qin = 0x41CC0000 → exec .qufxS8 s = .next { s with qout := 0x1980, status := 0 }

/-- 40_quantizer.md R96 (with R95's core and R90's transport): QUFLT16 in every state; the word and the example. -/
def Obligations.Quflt16QuantizesExactly : Prop :=
  (∀ s : State, exec .quflt16 s = .next (s.quantized (ufltSpec s.qin))) ∧
  decode 0x00000003 = .legal .quflt16 ∧
  (∀ w : Word, w.extractLsb' 0 8 = 0x03 → w.extractLsb' 8 2 ≠ 0b00 → ∃ why, decode w = .illegal why) ∧
  ∀ s : State, s.qin = 0x3F400000 → exec .quflt16 s = .next { s with qout := 0xFC00, status := 0 }

/-- 40_quantizer.md R97 (with R95's core and R90's transport): QSFLT16 in every state; the word and the example. -/
def Obligations.Qsflt16QuantizesExactly : Prop :=
  (∀ s : State, exec .qsflt16 s = .next (s.quantized (sfltSpec s.qin))) ∧
  decode 0x00000004 = .legal .qsflt16 ∧
  (∀ w : Word, w.extractLsb' 0 8 = 0x04 → w.extractLsb' 8 2 ≠ 0b00 → ∃ why, decode w = .illegal why) ∧
  ∀ s : State, s.qin = 0xBDCCCCCD → exec .qsflt16 s = .next { s with qout := 0xE666, status := 0 }

/-- 40_quantizer.md R99: in every quantizer command a NaN operand (E = 255, T ≠ 0, any sign) gives 0x0000 with NAN = 1
and SAT = 0. -/
def Obligations.NanGivesZeroCode : Prop :=
  ∀ (s : State) (i : Instr),
    i ∈ [Instr.qsfxS0, .qsfxS8, .qsfxS12, .qufxS0, .qufxS8, .qufxS12, .quflt16, .qsflt16] →
    s.qin.extractLsb' 23 8 = 255 → s.qin.extractLsb' 0 23 ≠ 0 →
    exec i s = .next { s with qout := 0x0000, status := 0b010 }

/-- 70_reset_and_hazards.md R173: the quantizer commands on the reset value of QIN, +0.0. -/
def Obligations.QuantizersOnResetOperand : Prop :=
  exec .qsfxS0 State.reset = .next { State.reset with qout := 0x0000 } ∧
  exec .qsfxS8 State.reset = .next { State.reset with qout := 0x0000 } ∧
  exec .qsfxS12 State.reset = .next { State.reset with qout := 0x0000 } ∧
  exec .qufxS0 State.reset = .next { State.reset with qout := 0x0000 } ∧
  exec .qufxS8 State.reset = .next { State.reset with qout := 0x0000 } ∧
  exec .qufxS12 State.reset = .next { State.reset with qout := 0x0000 } ∧
  exec .quflt16 State.reset = .next { State.reset with qout := 0xF000 } ∧
  exec .qsflt16 State.reset = .next { State.reset with qout := 0x7800 }

/-- 40_quantizer.md R100 (b): the six fixed-point commands are monotone over non-NaN operands: QOUT read as two's
complement after QSFX, as unsigned after QUFX. -/
def Obligations.FixedPointCodecsMonotone : Prop :=
  ∀ (s t : State) (v v' : ExtRat), f32Value s.qin = some v → f32Value t.qin = some v' → v.le v' →
    (∀ i ∈ [Instr.qsfxS0, .qsfxS8, .qsfxS12], ∃ s' t', exec i s = .next s' ∧ exec i t = .next t' ∧
      s'.qout.toInt ≤ t'.qout.toInt) ∧
    (∀ i ∈ [Instr.qufxS0, .qufxS8, .qufxS12], ∃ s' t', exec i s = .next s' ∧ exec i t = .next t' ∧
      s'.qout.toNat ≤ t'.qout.toNat)

/-- 40_quantizer.md R98: the ranges a VOLT and a TEMP code cover without saturation. -/
def Obligations.DomainScalerRanges : Prop :=
  ∀ (s : State) (v : ℚ), f32Value s.qin = some (.fin v) →
    (∃ t, exec .qsfxS12 s = .next t ∧ (t.sat = false ↔ -8.0001220703125 ≤ v ∧ v < 7.9998779296875)) ∧
    (∃ t, exec .qsfxS8 s = .next t ∧ (t.sat = false ↔ -128.001953125 ≤ v ∧ v < 127.998046875))

/-- 40_quantizer.md R95 (a), R96, R97: on a finite operand QUFLT16 saturates exactly when v < 0 or v ≥ 1 − 2^-13, and
QSFLT16 exactly when |v| ≥ 1 − 2^-12. -/
def Obligations.CompactFloatSaturationThresholds : Prop :=
  ∀ (s : State) (v : ℚ), f32Value s.qin = some (.fin v) →
    (∃ t, exec .quflt16 s = .next t ∧ (t.sat = true ↔ v < 0 ∨ 1 - 1 / 2 ^ 13 ≤ v)) ∧
    (∃ t, exec .qsflt16 s = .next t ∧ (t.sat = true ↔ 1 - 1 / 2 ^ 12 ≤ |v|))

/-- 40_quantizer.md R95 (b), with R96 and R97: below 2^-16 the clamp loses the scale: doubling an operand of magnitude
below 2^-16 leaves both compact codes and STATUS unchanged. Zero doubled is zero (R92), and QUFLT16 of a negative operand
is its underflow floor (R96). -/
def Obligations.ExponentClampLosesScale : Prop :=
  ∀ (s t : State) (v : ℚ), f32Value s.qin = some (.fin v) → f32Value t.qin = some (.fin (2 * v)) →
    |v| < 1 / 2 ^ 16 →
    ∀ i ∈ [Instr.quflt16, .qsflt16], ∃ s' t', exec i s = .next s' ∧ exec i t = .next t' ∧
      s'.qout = t'.qout ∧ s'.status = t'.status

/-- 40_quantizer.md R101 (a), (b): the compact floats at and beyond their bounds, the infinities included. -/
def Obligations.CompactFloatBounds : Prop :=
  ∀ (s : State) (v : ExtRat), f32Value s.qin = some v →
    (¬ (ExtRat.fin 0).le v → ∃ t, exec .quflt16 s = .next t ∧ t.qout = 0x0000) ∧
    ((ExtRat.fin 1).le v → ∃ t, exec .quflt16 s = .next t ∧ t.qout = 0xFFFF) ∧
    (v.le (.fin (-1)) → ∃ t, exec .qsflt16 s = .next t ∧ t.qout = 0xFFFF) ∧
    ((ExtRat.fin 1).le v → ∃ t, exec .qsflt16 s = .next t ∧ t.qout = 0x7FFF)

/-- 40_quantizer.md R101 (c): where the fraction rounds up to exactly the field width, the exponent is one more and the
fraction is its top bit; where that exponent exceeds 15, the code saturates. -/
def Obligations.CompactFloatCarry : Prop :=
  (∀ (s : State) (v : ℚ), f32Value s.qin = some (.fin v) → 0 < v → v < 1 →
    roundHalfUp (decompMantissa v * 2 ^ 12) = 2 ^ 12 →
    ∃ t, exec .quflt16 s = .next t ∧
      if decompExp v < 0 then (t.qout.extractLsb' 12 4).toNat = max (decompExp v + 15) 0 + 1 ∧
        t.qout.extractLsb' 0 12 = 0x800 ∧ t.sat = false
      else t.qout = 0xFFFF ∧ t.sat = true) ∧
  (∀ (s : State) (v : ℚ), f32Value s.qin = some (.fin v) → 0 < |v| → |v| < 1 →
    roundHalfUp (decompMantissa |v| * 2 ^ 11) = 2 ^ 11 →
    ∃ t, exec .qsflt16 s = .next t ∧ t.qout.getLsbD 15 = decide (v < 0) ∧
      if decompExp |v| < 0 then (t.qout.extractLsb' 11 4).toNat = max (decompExp |v| + 15) 0 + 1 ∧
        t.qout.extractLsb' 0 11 = 0x400 ∧ t.sat = false
      else t.qout.extractLsb' 0 15 = 0x7FFF ∧ t.sat = true)

/-- 40_quantizer.md R97 (corner cases): a negative QSFLT16 result is never two's complement: −x and x differ only in
bit 15, for every operand but NaN and zero. -/
def Obligations.SignedCompactFloatIsSignMagnitude : Prop :=
  ∀ (s : State), isNaN s.qin = false → isZero s.qin = false →
    ∃ t t', exec .qsflt16 s = .next t ∧ exec .qsflt16 (s.setQin (s.qin ^^^ 0x80000000)) = .next t' ∧
      t'.qout = t.qout ^^^ 0x8000 ∧ t'.status = t.status

/-! The buffer encoder -/

/-- 41_buffer_encoder.md R122 and R127: BUILD, in every state, leaves in BUF, BUF_LEN and STATUS what the normative
pseudocode computes, its machine IDLE, and the record, QIN and QOUT as they were. -/
def Obligations.BuildFollowsPseudocode : Prop :=
  ∀ s : State, ∃ t, exec .build s = .next t ∧
    t.buf = (buildSpec s).buf ∧ t.bufLen = BitVec.ofNat 4 (buildSpec s).n ∧
    2 ≤ (buildSpec s).n ∧ (buildSpec s).n ≤ 9 ∧
    t.status = statusBits false (buildSpec s).nan (buildSpec s).sat ∧ t.build.bs = .idle ∧
    t.recValid = s.recValid ∧ t.recVbat = s.recVbat ∧ t.recVbus = s.recVbus ∧ t.recBoot = s.recBoot ∧
    t.recTemp = s.recTemp ∧ t.qin = s.qin ∧ t.qout = s.qout

/-- 41_buffer_encoder.md R121: started in TAG, the machine passes the states of the table in order and ends in IDLE. -/
def Obligations.BuildMachineStateOrder : Prop :=
  ∀ s : State,
    (List.range 9).map (fun k => (buildTransitions k (enter s .tag)).build.bs) =
      [.tag, .placeholder, .field0, .field1, .field2, .field3, .patch, .done, .idle]

/-- 30_encoding.md R87: the bytes the host collects after a BUILD are the message of the record, every byte past them
is 0x00, and a decoder that reads the flags byte and walks the fields gets each present field back and no absent one. -/
def Obligations.BuiltMessageLayoutAndDecoding : Prop :=
  ∀ s : State, ∃ t, exec .build s = .next t ∧
    t.collected = message s ∧ t.bufLen.toNat = (message s).length ∧
    (∀ i : Fin 9, t.bufLen.toNat ≤ i → t.buf[i] = 0x00) ∧
    parseMessage t.collected = some
      { vbat := if s.recValid.getLsbD 0 then some (sfxSpec 12 s.recVbat).code else none
        vbus := if s.recValid.getLsbD 1 then some (sfxSpec 12 s.recVbus).code else none
        boot := if s.recValid.getLsbD 2 then some s.recBoot else none
        temp := if s.recValid.getLsbD 3 then some (sfxSpec 8 s.recTemp).code else none }

/-- 41_buffer_encoder.md R124 and R125: after a BUILD the flags byte is REC_VALID and BUF_LEN is 2 + 2 V0 + 2 V1 + V2 +
2 V3. -/
def Obligations.BuildFlagsAndLength : Prop :=
  ∀ s : State, ∃ t, exec .build s = .next t ∧
    t.buf[1] = s.recValid.zeroExtend 8 ∧
    t.bufLen.toNat = 2 + 2 * (s.recValid.getLsbD 0).toNat + 2 * (s.recValid.getLsbD 1).toNat +
      (s.recValid.getLsbD 2).toNat + 2 * (s.recValid.getLsbD 3).toNat

/-- 41_buffer_encoder.md R126: BUILD's STATUS: ILL = 0, SAT and NAN the ORs over the present Vbat, Vbus and CompostTemp
fields; a field that saturates is appended with its clamp code and a NaN field as 00 00, their flag bits set. -/
def Obligations.BuildStatus : Prop :=
  ∀ s : State, ∃ t, exec .build s = .next t ∧ t.ill = false ∧
    t.sat = ((s.recValid.getLsbD 0 && (sfxSpec 12 s.recVbat).sat) || (s.recValid.getLsbD 1 && (sfxSpec 12 s.recVbus).sat) ||
      (s.recValid.getLsbD 3 && (sfxSpec 8 s.recTemp).sat)) ∧
    t.nan = ((s.recValid.getLsbD 0 && isNaN s.recVbat) || (s.recValid.getLsbD 1 && isNaN s.recVbus) ||
      (s.recValid.getLsbD 3 && isNaN s.recTemp)) ∧
    t.collected = message s ∧
    ∀ (k : ℕ) (w : Word), ((sfxSpec k w).sat = true → (sfxSpec k w).code = 0x7FFF ∨ (sfxSpec k w).code = 0x8000) ∧
      (isNaN w = true → sfxSpec k w = ⟨0x0000, false, true⟩)

/-- 41_buffer_encoder.md R128: the empty record builds 2b 00, BUF_LEN = 2 and STATUS = 0. -/
def Obligations.BuildEmptyRecord : Prop :=
  ∀ s : State, s.recValid = 0 →
    ∃ t, exec .build s = .next t ∧ t.buf = #v[0x2B, 0, 0, 0, 0, 0, 0, 0, 0] ∧ t.bufLen = 2 ∧ t.status = 0

/-- 41_buffer_encoder.md R132: the source's scenarios A to D, from any state with those record registers. -/
def Obligations.BuildScenarios : Prop :=
  (∀ s : State, s.recValid = 0x3 → s.recVbat = 0x40533333 → s.recVbus = 0x40A00000 →
    ∃ t, exec .build s = .next t ∧ t.collected = [0x2B, 0x03, 0x34, 0xCD, 0x50, 0x00] ∧ t.bufLen = 6) ∧
  (∀ s : State, s.recValid = 0x4 → s.recBoot = 7 →
    ∃ t, exec .build s = .next t ∧ t.collected = [0x2B, 0x04, 0x07] ∧ t.bufLen = 3) ∧
  (∀ s : State, s.recValid = 0xD → s.recVbat = 0x40533333 → s.recBoot = 7 → s.recTemp = 0x41CC0000 →
    ∃ t, exec .build s = .next t ∧ t.collected = [0x2B, 0x0D, 0x34, 0xCD, 0x07, 0x19, 0x80] ∧ t.bufLen = 7) ∧
  ∀ s : State, s.recValid = 0x0 →
    ∃ t, exec .build s = .next t ∧ t.collected = [0x2B, 0x00] ∧ t.bufLen = 2

/-- 41_buffer_encoder.md R129 and R130: two states whose REC_VALID and present value registers agree build the same
BUF, BUF_LEN and STATUS, whatever their absent fields, QIN, QOUT, previous buffer and previous STATUS; so does a second
BUILD straight after the first. -/
def Obligations.BuildDependsOnlyOnPresentFields : Prop :=
  (∀ s t : State, s.recValid = t.recValid →
    (s.recValid.getLsbD 0 = true → s.recVbat = t.recVbat) → (s.recValid.getLsbD 1 = true → s.recVbus = t.recVbus) →
    (s.recValid.getLsbD 2 = true → s.recBoot = t.recBoot) → (s.recValid.getLsbD 3 = true → s.recTemp = t.recTemp) →
    ∃ s' t', exec .build s = .next s' ∧ exec .build t = .next t' ∧
      s'.buf = t'.buf ∧ s'.bufLen = t'.bufLen ∧ s'.status = t'.status) ∧
  ∀ s s' : State, exec .build s = .next s' →
    ∃ s'', exec .build s' = .next s'' ∧ s''.buf = s'.buf ∧ s''.bufLen = s'.bufLen ∧ s''.status = s'.status

/-! Frames and whole-machine rules -/

/-- The frame of every command (10_state.md R22, R24, R37, R38; 40_quantizer.md R90; 42_control.md R140): the operand
registers and the host's side never change; all but BUILD leave the buffer, BUF_LEN and the build machine; NOP and BUILD
leave QOUT. -/
def Obligations.CommandFrames : Prop :=
  ∀ (i : Instr) (s t : State), exec i s = .next t →
    t.qin = s.qin ∧ t.recValid = s.recValid ∧ t.recVbat = s.recVbat ∧ t.recVbus = s.recVbus ∧
    t.recBoot = s.recBoot ∧ t.recTemp = s.recTemp ∧ t.pending = s.pending ∧ t.reads = s.reads ∧
    (i ≠ .build → (∀ j, t.bufByte j = s.bufByte j) ∧ t.bufLen = s.bufLen ∧ t.build = s.build) ∧
    (i = .nop ∨ i = .build → t.qout = s.qout)

/-- 10_state.md R30 (and 70_reset_and_hazards.md R170): STATUS changes only by a write to CMD (or a reset), and after a write to CMD no STATUS bit depends
on its previous value. -/
def Obligations.OnlyCommandsWriteStatus : Prop :=
  (∀ (e : HostEvent) (s t : State), perform e s = .next t → t.status ≠ s.status →
    e = .reset ∨ ∃ w, e = memWrite (Config.base + 0x00) 4 w) ∧
  ∀ (w : Word) (s : State) (old : BitVec 3),
    ∃ t t', perform (memWrite (Config.base + 0x00) 4 w) s = .next t ∧
      perform (memWrite (Config.base + 0x00) 4 w) { s with status := old } = .next t' ∧ t'.status = t.status

/-- 20_memory.md R59: repeating a legal command with unchanged inputs gives the same results, and a write to any
register but CMD done twice leaves the state of doing it once. That the hidden n, fl, sat and nan repeat too is log
entry 2's. -/
def Obligations.RepeatedAccessesIdempotent : Prop :=
  (∀ (i : Instr) (s t : State), exec i s = .next t → exec i t = .next t) ∧
  ∀ (addr n : ℕ) (v : Word) (s t : State), addr ≠ Config.base →
    perform (memWrite addr n v) s = .next t → perform (memWrite addr n v) t = .next t

/-- 10_state.md R29: a legal command sets ILL to 0. -/
def Obligations.LegalCommandsClearIll : Prop :=
  ∀ (i : Instr) (s : State), ∃ t, exec i s = .next t ∧ t.ill = false

/-- 10_state.md R24: QOUT changes only by one of the eight quantizer words written to CMD (or a reset). -/
def Obligations.OnlyQuantizersWriteQout : Prop :=
  ∀ (e : HostEvent) (s t : State), perform e s = .next t → t.qout ≠ s.qout →
    e = .reset ∨ ∃ w ∈ ([0x00000001, 0x00000101, 0x00000201, 0x00000002, 0x00000102, 0x00000202, 0x00000003,
      0x00000004] : List Word), e = memWrite (Config.base + 0x00) 4 w

/-- 10_state.md R37 and R38: the buffer and BUF_LEN change only by the word of BUILD written to CMD (or a reset). -/
def Obligations.OnlyBuildWritesBuffer : Prop :=
  ∀ (e : HostEvent) (s t : State), perform e s = .next t → t.buf ≠ s.buf ∨ t.bufLen ≠ s.bufLen →
    e = .reset ∨ e = memWrite (Config.base + 0x00) 4 0x00000010

/-- 10_state.md R22: QIN and the record registers change only by a write to the register itself (or a reset). -/
def Obligations.OnlyHostWritesOperands : Prop :=
  ∀ (e : HostEvent) (s t : State), perform e s = .next t →
    (t.qin ≠ s.qin → e = .reset ∨ ∃ v, e = memWrite (Config.base + 0x08) 4 v) ∧
    (t.recValid ≠ s.recValid → e = .reset ∨ ∃ v, e = memWrite (Config.base + 0x10) 4 v) ∧
    (t.recVbat ≠ s.recVbat → e = .reset ∨ ∃ v, e = memWrite (Config.base + 0x14) 4 v) ∧
    (t.recVbus ≠ s.recVbus → e = .reset ∨ ∃ v, e = memWrite (Config.base + 0x18) 4 v) ∧
    (t.recBoot ≠ s.recBoot → e = .reset ∨ ∃ v, e = memWrite (Config.base + 0x1C) 4 v) ∧
    (t.recTemp ≠ s.recTemp → e = .reset ∨ ∃ v, e = memWrite (Config.base + 0x20) 4 v)

/-- 60_exceptions.md R153: no quantizer command sets both NAN and SAT; a BUILD can, when different present fields
cause them. -/
def Obligations.NanAndSatTogetherOnlyInBuild : Prop :=
  (∀ (i : Instr) (s t : State), i ≠ .build → exec i s = .next t → ¬(t.nan = true ∧ t.sat = true)) ∧
  ∃ s t, exec .build s = .next t ∧ t.nan = true ∧ t.sat = true

/-- 10_state.md R28: the NAN bit after each legal command: a NaN in QIN for a quantizer command, in a present scalar
field for BUILD, never for NOP. -/
def Obligations.NanBitMeansNanOperand : Prop :=
  ∀ (i : Instr) (s : State), ∃ t, exec i s = .next t ∧
    t.nan = (match i with
      | .nop => false
      | .build => (s.recValid.getLsbD 0 && isNaN s.recVbat) || (s.recValid.getLsbD 1 && isNaN s.recVbus) ||
          (s.recValid.getLsbD 3 && isNaN s.recTemp)
      | .qsfxS0 | .qsfxS8 | .qsfxS12 | .qufxS0 | .qufxS8 | .qufxS12 | .quflt16 | .qsflt16 => isNaN s.qin)

/-! Invariants and runs -/

/-- The invariant (build machine IDLE and n ≤ 9 between steps; ILL excludes NAN and SAT; the buffer empty or a message:
10_state.md R37 to R40, 30_encoding.md R87, 60_exceptions.md R153) is kept by every step, from every state. -/
def Obligations.StepKeepsInvariant : Prop :=
  ∀ s t : State, s.Inv → step s = .next t → t.Inv

/-- The invariant holds at reset. -/
def Obligations.ResetMeetsInvariant : Prop := State.reset.Inv

/-- 60_exceptions.md R150, R164: a queue of admitted accesses runs to its end: no step refuses, all of it is
performed, and each read has returned one value. The queue is the model's own (log entry 3). -/
def Obligations.AdmittedAccessesRunToTheEnd : Prop :=
  ∀ s : State, s.safe = true →
    ∃ t, Sys2Proof.core.run s.pending.length s = .next t ∧ t.pending = [] ∧
      t.reads.length = s.reads.length +
        (s.pending.filter (fun e => match e with | .read _ _ => true | .write _ _ _ => false | .reset => false)).length
end

