-- ==== Sys2Proof/Laws/State.lean ====
section
/-! SUPPORT. What each field of State is after each update, once and for all, so that no later proof unfolds one. -/

namespace Sys2Proof.Machine

@[simp] theorem State.setStatus_status (s : State) (v : BitVec 3) : (s.setStatus v).status = v := rfl
@[simp] theorem State.setStatus_qin (s : State) (v : BitVec 3) : (s.setStatus v).qin = s.qin := rfl
@[simp] theorem State.setStatus_qout (s : State) (v : BitVec 3) : (s.setStatus v).qout = s.qout := rfl
@[simp] theorem State.setStatus_recValid (s : State) (v : BitVec 3) : (s.setStatus v).recValid = s.recValid := rfl
@[simp] theorem State.setStatus_recVbat (s : State) (v : BitVec 3) : (s.setStatus v).recVbat = s.recVbat := rfl
@[simp] theorem State.setStatus_recVbus (s : State) (v : BitVec 3) : (s.setStatus v).recVbus = s.recVbus := rfl
@[simp] theorem State.setStatus_recBoot (s : State) (v : BitVec 3) : (s.setStatus v).recBoot = s.recBoot := rfl
@[simp] theorem State.setStatus_recTemp (s : State) (v : BitVec 3) : (s.setStatus v).recTemp = s.recTemp := rfl
@[simp] theorem State.setStatus_bufLen (s : State) (v : BitVec 3) : (s.setStatus v).bufLen = s.bufLen := rfl
@[simp] theorem State.setStatus_buf (s : State) (v : BitVec 3) : (s.setStatus v).buf = s.buf := rfl
@[simp] theorem State.setStatus_build (s : State) (v : BitVec 3) : (s.setStatus v).build = s.build := rfl
@[simp] theorem State.setStatus_pending (s : State) (v : BitVec 3) : (s.setStatus v).pending = s.pending := rfl
@[simp] theorem State.setStatus_reads (s : State) (v : BitVec 3) : (s.setStatus v).reads = s.reads := rfl

@[simp] theorem State.setQin_status (s : State) (v : Word) : (s.setQin v).status = s.status := rfl
@[simp] theorem State.setQin_qin (s : State) (v : Word) : (s.setQin v).qin = v := rfl
@[simp] theorem State.setQin_qout (s : State) (v : Word) : (s.setQin v).qout = s.qout := rfl
@[simp] theorem State.setQin_recValid (s : State) (v : Word) : (s.setQin v).recValid = s.recValid := rfl
@[simp] theorem State.setQin_recVbat (s : State) (v : Word) : (s.setQin v).recVbat = s.recVbat := rfl
@[simp] theorem State.setQin_recVbus (s : State) (v : Word) : (s.setQin v).recVbus = s.recVbus := rfl
@[simp] theorem State.setQin_recBoot (s : State) (v : Word) : (s.setQin v).recBoot = s.recBoot := rfl
@[simp] theorem State.setQin_recTemp (s : State) (v : Word) : (s.setQin v).recTemp = s.recTemp := rfl
@[simp] theorem State.setQin_bufLen (s : State) (v : Word) : (s.setQin v).bufLen = s.bufLen := rfl
@[simp] theorem State.setQin_buf (s : State) (v : Word) : (s.setQin v).buf = s.buf := rfl
@[simp] theorem State.setQin_build (s : State) (v : Word) : (s.setQin v).build = s.build := rfl
@[simp] theorem State.setQin_pending (s : State) (v : Word) : (s.setQin v).pending = s.pending := rfl
@[simp] theorem State.setQin_reads (s : State) (v : Word) : (s.setQin v).reads = s.reads := rfl

@[simp] theorem State.setQout_status (s : State) (v : Code) : (s.setQout v).status = s.status := rfl
@[simp] theorem State.setQout_qin (s : State) (v : Code) : (s.setQout v).qin = s.qin := rfl
@[simp] theorem State.setQout_qout (s : State) (v : Code) : (s.setQout v).qout = v := rfl
@[simp] theorem State.setQout_recValid (s : State) (v : Code) : (s.setQout v).recValid = s.recValid := rfl
@[simp] theorem State.setQout_recVbat (s : State) (v : Code) : (s.setQout v).recVbat = s.recVbat := rfl
@[simp] theorem State.setQout_recVbus (s : State) (v : Code) : (s.setQout v).recVbus = s.recVbus := rfl
@[simp] theorem State.setQout_recBoot (s : State) (v : Code) : (s.setQout v).recBoot = s.recBoot := rfl
@[simp] theorem State.setQout_recTemp (s : State) (v : Code) : (s.setQout v).recTemp = s.recTemp := rfl
@[simp] theorem State.setQout_bufLen (s : State) (v : Code) : (s.setQout v).bufLen = s.bufLen := rfl
@[simp] theorem State.setQout_buf (s : State) (v : Code) : (s.setQout v).buf = s.buf := rfl
@[simp] theorem State.setQout_build (s : State) (v : Code) : (s.setQout v).build = s.build := rfl
@[simp] theorem State.setQout_pending (s : State) (v : Code) : (s.setQout v).pending = s.pending := rfl
@[simp] theorem State.setQout_reads (s : State) (v : Code) : (s.setQout v).reads = s.reads := rfl

@[simp] theorem State.setRecValid_status (s : State) (v : BitVec 4) : (s.setRecValid v).status = s.status := rfl
@[simp] theorem State.setRecValid_qin (s : State) (v : BitVec 4) : (s.setRecValid v).qin = s.qin := rfl
@[simp] theorem State.setRecValid_qout (s : State) (v : BitVec 4) : (s.setRecValid v).qout = s.qout := rfl
@[simp] theorem State.setRecValid_recValid (s : State) (v : BitVec 4) : (s.setRecValid v).recValid = v := rfl
@[simp] theorem State.setRecValid_recVbat (s : State) (v : BitVec 4) : (s.setRecValid v).recVbat = s.recVbat := rfl
@[simp] theorem State.setRecValid_recVbus (s : State) (v : BitVec 4) : (s.setRecValid v).recVbus = s.recVbus := rfl
@[simp] theorem State.setRecValid_recBoot (s : State) (v : BitVec 4) : (s.setRecValid v).recBoot = s.recBoot := rfl
@[simp] theorem State.setRecValid_recTemp (s : State) (v : BitVec 4) : (s.setRecValid v).recTemp = s.recTemp := rfl
@[simp] theorem State.setRecValid_bufLen (s : State) (v : BitVec 4) : (s.setRecValid v).bufLen = s.bufLen := rfl
@[simp] theorem State.setRecValid_buf (s : State) (v : BitVec 4) : (s.setRecValid v).buf = s.buf := rfl
@[simp] theorem State.setRecValid_build (s : State) (v : BitVec 4) : (s.setRecValid v).build = s.build := rfl
@[simp] theorem State.setRecValid_pending (s : State) (v : BitVec 4) : (s.setRecValid v).pending = s.pending := rfl
@[simp] theorem State.setRecValid_reads (s : State) (v : BitVec 4) : (s.setRecValid v).reads = s.reads := rfl

@[simp] theorem State.setRecVbat_status (s : State) (v : Word) : (s.setRecVbat v).status = s.status := rfl
@[simp] theorem State.setRecVbat_qin (s : State) (v : Word) : (s.setRecVbat v).qin = s.qin := rfl
@[simp] theorem State.setRecVbat_qout (s : State) (v : Word) : (s.setRecVbat v).qout = s.qout := rfl
@[simp] theorem State.setRecVbat_recValid (s : State) (v : Word) : (s.setRecVbat v).recValid = s.recValid := rfl
@[simp] theorem State.setRecVbat_recVbat (s : State) (v : Word) : (s.setRecVbat v).recVbat = v := rfl
@[simp] theorem State.setRecVbat_recVbus (s : State) (v : Word) : (s.setRecVbat v).recVbus = s.recVbus := rfl
@[simp] theorem State.setRecVbat_recBoot (s : State) (v : Word) : (s.setRecVbat v).recBoot = s.recBoot := rfl
@[simp] theorem State.setRecVbat_recTemp (s : State) (v : Word) : (s.setRecVbat v).recTemp = s.recTemp := rfl
@[simp] theorem State.setRecVbat_bufLen (s : State) (v : Word) : (s.setRecVbat v).bufLen = s.bufLen := rfl
@[simp] theorem State.setRecVbat_buf (s : State) (v : Word) : (s.setRecVbat v).buf = s.buf := rfl
@[simp] theorem State.setRecVbat_build (s : State) (v : Word) : (s.setRecVbat v).build = s.build := rfl
@[simp] theorem State.setRecVbat_pending (s : State) (v : Word) : (s.setRecVbat v).pending = s.pending := rfl
@[simp] theorem State.setRecVbat_reads (s : State) (v : Word) : (s.setRecVbat v).reads = s.reads := rfl

@[simp] theorem State.setRecVbus_status (s : State) (v : Word) : (s.setRecVbus v).status = s.status := rfl
@[simp] theorem State.setRecVbus_qin (s : State) (v : Word) : (s.setRecVbus v).qin = s.qin := rfl
@[simp] theorem State.setRecVbus_qout (s : State) (v : Word) : (s.setRecVbus v).qout = s.qout := rfl
@[simp] theorem State.setRecVbus_recValid (s : State) (v : Word) : (s.setRecVbus v).recValid = s.recValid := rfl
@[simp] theorem State.setRecVbus_recVbat (s : State) (v : Word) : (s.setRecVbus v).recVbat = s.recVbat := rfl
@[simp] theorem State.setRecVbus_recVbus (s : State) (v : Word) : (s.setRecVbus v).recVbus = v := rfl
@[simp] theorem State.setRecVbus_recBoot (s : State) (v : Word) : (s.setRecVbus v).recBoot = s.recBoot := rfl
@[simp] theorem State.setRecVbus_recTemp (s : State) (v : Word) : (s.setRecVbus v).recTemp = s.recTemp := rfl
@[simp] theorem State.setRecVbus_bufLen (s : State) (v : Word) : (s.setRecVbus v).bufLen = s.bufLen := rfl
@[simp] theorem State.setRecVbus_buf (s : State) (v : Word) : (s.setRecVbus v).buf = s.buf := rfl
@[simp] theorem State.setRecVbus_build (s : State) (v : Word) : (s.setRecVbus v).build = s.build := rfl
@[simp] theorem State.setRecVbus_pending (s : State) (v : Word) : (s.setRecVbus v).pending = s.pending := rfl
@[simp] theorem State.setRecVbus_reads (s : State) (v : Word) : (s.setRecVbus v).reads = s.reads := rfl

@[simp] theorem State.setRecBoot_status (s : State) (v : Byte) : (s.setRecBoot v).status = s.status := rfl
@[simp] theorem State.setRecBoot_qin (s : State) (v : Byte) : (s.setRecBoot v).qin = s.qin := rfl
@[simp] theorem State.setRecBoot_qout (s : State) (v : Byte) : (s.setRecBoot v).qout = s.qout := rfl
@[simp] theorem State.setRecBoot_recValid (s : State) (v : Byte) : (s.setRecBoot v).recValid = s.recValid := rfl
@[simp] theorem State.setRecBoot_recVbat (s : State) (v : Byte) : (s.setRecBoot v).recVbat = s.recVbat := rfl
@[simp] theorem State.setRecBoot_recVbus (s : State) (v : Byte) : (s.setRecBoot v).recVbus = s.recVbus := rfl
@[simp] theorem State.setRecBoot_recBoot (s : State) (v : Byte) : (s.setRecBoot v).recBoot = v := rfl
@[simp] theorem State.setRecBoot_recTemp (s : State) (v : Byte) : (s.setRecBoot v).recTemp = s.recTemp := rfl
@[simp] theorem State.setRecBoot_bufLen (s : State) (v : Byte) : (s.setRecBoot v).bufLen = s.bufLen := rfl
@[simp] theorem State.setRecBoot_buf (s : State) (v : Byte) : (s.setRecBoot v).buf = s.buf := rfl
@[simp] theorem State.setRecBoot_build (s : State) (v : Byte) : (s.setRecBoot v).build = s.build := rfl
@[simp] theorem State.setRecBoot_pending (s : State) (v : Byte) : (s.setRecBoot v).pending = s.pending := rfl
@[simp] theorem State.setRecBoot_reads (s : State) (v : Byte) : (s.setRecBoot v).reads = s.reads := rfl

@[simp] theorem State.setRecTemp_status (s : State) (v : Word) : (s.setRecTemp v).status = s.status := rfl
@[simp] theorem State.setRecTemp_qin (s : State) (v : Word) : (s.setRecTemp v).qin = s.qin := rfl
@[simp] theorem State.setRecTemp_qout (s : State) (v : Word) : (s.setRecTemp v).qout = s.qout := rfl
@[simp] theorem State.setRecTemp_recValid (s : State) (v : Word) : (s.setRecTemp v).recValid = s.recValid := rfl
@[simp] theorem State.setRecTemp_recVbat (s : State) (v : Word) : (s.setRecTemp v).recVbat = s.recVbat := rfl
@[simp] theorem State.setRecTemp_recVbus (s : State) (v : Word) : (s.setRecTemp v).recVbus = s.recVbus := rfl
@[simp] theorem State.setRecTemp_recBoot (s : State) (v : Word) : (s.setRecTemp v).recBoot = s.recBoot := rfl
@[simp] theorem State.setRecTemp_recTemp (s : State) (v : Word) : (s.setRecTemp v).recTemp = v := rfl
@[simp] theorem State.setRecTemp_bufLen (s : State) (v : Word) : (s.setRecTemp v).bufLen = s.bufLen := rfl
@[simp] theorem State.setRecTemp_buf (s : State) (v : Word) : (s.setRecTemp v).buf = s.buf := rfl
@[simp] theorem State.setRecTemp_build (s : State) (v : Word) : (s.setRecTemp v).build = s.build := rfl
@[simp] theorem State.setRecTemp_pending (s : State) (v : Word) : (s.setRecTemp v).pending = s.pending := rfl
@[simp] theorem State.setRecTemp_reads (s : State) (v : Word) : (s.setRecTemp v).reads = s.reads := rfl

@[simp] theorem State.setBufLen_status (s : State) (v : BitVec 4) : (s.setBufLen v).status = s.status := rfl
@[simp] theorem State.setBufLen_qin (s : State) (v : BitVec 4) : (s.setBufLen v).qin = s.qin := rfl
@[simp] theorem State.setBufLen_qout (s : State) (v : BitVec 4) : (s.setBufLen v).qout = s.qout := rfl
@[simp] theorem State.setBufLen_recValid (s : State) (v : BitVec 4) : (s.setBufLen v).recValid = s.recValid := rfl
@[simp] theorem State.setBufLen_recVbat (s : State) (v : BitVec 4) : (s.setBufLen v).recVbat = s.recVbat := rfl
@[simp] theorem State.setBufLen_recVbus (s : State) (v : BitVec 4) : (s.setBufLen v).recVbus = s.recVbus := rfl
@[simp] theorem State.setBufLen_recBoot (s : State) (v : BitVec 4) : (s.setBufLen v).recBoot = s.recBoot := rfl
@[simp] theorem State.setBufLen_recTemp (s : State) (v : BitVec 4) : (s.setBufLen v).recTemp = s.recTemp := rfl
@[simp] theorem State.setBufLen_bufLen (s : State) (v : BitVec 4) : (s.setBufLen v).bufLen = v := rfl
@[simp] theorem State.setBufLen_buf (s : State) (v : BitVec 4) : (s.setBufLen v).buf = s.buf := rfl
@[simp] theorem State.setBufLen_build (s : State) (v : BitVec 4) : (s.setBufLen v).build = s.build := rfl
@[simp] theorem State.setBufLen_pending (s : State) (v : BitVec 4) : (s.setBufLen v).pending = s.pending := rfl
@[simp] theorem State.setBufLen_reads (s : State) (v : BitVec 4) : (s.setBufLen v).reads = s.reads := rfl

@[simp] theorem State.setBuf_status (s : State) (v : Vector Byte 9) : (s.setBuf v).status = s.status := rfl
@[simp] theorem State.setBuf_qin (s : State) (v : Vector Byte 9) : (s.setBuf v).qin = s.qin := rfl
@[simp] theorem State.setBuf_qout (s : State) (v : Vector Byte 9) : (s.setBuf v).qout = s.qout := rfl
@[simp] theorem State.setBuf_recValid (s : State) (v : Vector Byte 9) : (s.setBuf v).recValid = s.recValid := rfl
@[simp] theorem State.setBuf_recVbat (s : State) (v : Vector Byte 9) : (s.setBuf v).recVbat = s.recVbat := rfl
@[simp] theorem State.setBuf_recVbus (s : State) (v : Vector Byte 9) : (s.setBuf v).recVbus = s.recVbus := rfl
@[simp] theorem State.setBuf_recBoot (s : State) (v : Vector Byte 9) : (s.setBuf v).recBoot = s.recBoot := rfl
@[simp] theorem State.setBuf_recTemp (s : State) (v : Vector Byte 9) : (s.setBuf v).recTemp = s.recTemp := rfl
@[simp] theorem State.setBuf_bufLen (s : State) (v : Vector Byte 9) : (s.setBuf v).bufLen = s.bufLen := rfl
@[simp] theorem State.setBuf_buf (s : State) (v : Vector Byte 9) : (s.setBuf v).buf = v := rfl
@[simp] theorem State.setBuf_build (s : State) (v : Vector Byte 9) : (s.setBuf v).build = s.build := rfl
@[simp] theorem State.setBuf_pending (s : State) (v : Vector Byte 9) : (s.setBuf v).pending = s.pending := rfl
@[simp] theorem State.setBuf_reads (s : State) (v : Vector Byte 9) : (s.setBuf v).reads = s.reads := rfl

@[simp] theorem State.setBuild_status (s : State) (v : BuildUnit) : (s.setBuild v).status = s.status := rfl
@[simp] theorem State.setBuild_qin (s : State) (v : BuildUnit) : (s.setBuild v).qin = s.qin := rfl
@[simp] theorem State.setBuild_qout (s : State) (v : BuildUnit) : (s.setBuild v).qout = s.qout := rfl
@[simp] theorem State.setBuild_recValid (s : State) (v : BuildUnit) : (s.setBuild v).recValid = s.recValid := rfl
@[simp] theorem State.setBuild_recVbat (s : State) (v : BuildUnit) : (s.setBuild v).recVbat = s.recVbat := rfl
@[simp] theorem State.setBuild_recVbus (s : State) (v : BuildUnit) : (s.setBuild v).recVbus = s.recVbus := rfl
@[simp] theorem State.setBuild_recBoot (s : State) (v : BuildUnit) : (s.setBuild v).recBoot = s.recBoot := rfl
@[simp] theorem State.setBuild_recTemp (s : State) (v : BuildUnit) : (s.setBuild v).recTemp = s.recTemp := rfl
@[simp] theorem State.setBuild_bufLen (s : State) (v : BuildUnit) : (s.setBuild v).bufLen = s.bufLen := rfl
@[simp] theorem State.setBuild_buf (s : State) (v : BuildUnit) : (s.setBuild v).buf = s.buf := rfl
@[simp] theorem State.setBuild_build (s : State) (v : BuildUnit) : (s.setBuild v).build = v := rfl
@[simp] theorem State.setBuild_pending (s : State) (v : BuildUnit) : (s.setBuild v).pending = s.pending := rfl
@[simp] theorem State.setBuild_reads (s : State) (v : BuildUnit) : (s.setBuild v).reads = s.reads := rfl

@[simp] theorem State.setPending_status (s : State) (v : List HostEvent) : (s.setPending v).status = s.status := rfl
@[simp] theorem State.setPending_qin (s : State) (v : List HostEvent) : (s.setPending v).qin = s.qin := rfl
@[simp] theorem State.setPending_qout (s : State) (v : List HostEvent) : (s.setPending v).qout = s.qout := rfl
@[simp] theorem State.setPending_recValid (s : State) (v : List HostEvent) : (s.setPending v).recValid = s.recValid := rfl
@[simp] theorem State.setPending_recVbat (s : State) (v : List HostEvent) : (s.setPending v).recVbat = s.recVbat := rfl
@[simp] theorem State.setPending_recVbus (s : State) (v : List HostEvent) : (s.setPending v).recVbus = s.recVbus := rfl
@[simp] theorem State.setPending_recBoot (s : State) (v : List HostEvent) : (s.setPending v).recBoot = s.recBoot := rfl
@[simp] theorem State.setPending_recTemp (s : State) (v : List HostEvent) : (s.setPending v).recTemp = s.recTemp := rfl
@[simp] theorem State.setPending_bufLen (s : State) (v : List HostEvent) : (s.setPending v).bufLen = s.bufLen := rfl
@[simp] theorem State.setPending_buf (s : State) (v : List HostEvent) : (s.setPending v).buf = s.buf := rfl
@[simp] theorem State.setPending_build (s : State) (v : List HostEvent) : (s.setPending v).build = s.build := rfl
@[simp] theorem State.setPending_pending (s : State) (v : List HostEvent) : (s.setPending v).pending = v := rfl
@[simp] theorem State.setPending_reads (s : State) (v : List HostEvent) : (s.setPending v).reads = s.reads := rfl

@[simp] theorem State.setReads_status (s : State) (v : List Word) : (s.setReads v).status = s.status := rfl
@[simp] theorem State.setReads_qin (s : State) (v : List Word) : (s.setReads v).qin = s.qin := rfl
@[simp] theorem State.setReads_qout (s : State) (v : List Word) : (s.setReads v).qout = s.qout := rfl
@[simp] theorem State.setReads_recValid (s : State) (v : List Word) : (s.setReads v).recValid = s.recValid := rfl
@[simp] theorem State.setReads_recVbat (s : State) (v : List Word) : (s.setReads v).recVbat = s.recVbat := rfl
@[simp] theorem State.setReads_recVbus (s : State) (v : List Word) : (s.setReads v).recVbus = s.recVbus := rfl
@[simp] theorem State.setReads_recBoot (s : State) (v : List Word) : (s.setReads v).recBoot = s.recBoot := rfl
@[simp] theorem State.setReads_recTemp (s : State) (v : List Word) : (s.setReads v).recTemp = s.recTemp := rfl
@[simp] theorem State.setReads_bufLen (s : State) (v : List Word) : (s.setReads v).bufLen = s.bufLen := rfl
@[simp] theorem State.setReads_buf (s : State) (v : List Word) : (s.setReads v).buf = s.buf := rfl
@[simp] theorem State.setReads_build (s : State) (v : List Word) : (s.setReads v).build = s.build := rfl
@[simp] theorem State.setReads_pending (s : State) (v : List Word) : (s.setReads v).pending = s.pending := rfl
@[simp] theorem State.setReads_reads (s : State) (v : List Word) : (s.setReads v).reads = v := rfl

end Sys2Proof.Machine
end

