-- ==== Sys2Proof/Laws/Build.lean ====
section
/-! SUPPORT. The spec lemmas of the buffer encoder's operations: what each leaves alone, what each does to the machine,
and BUILD as the composition of its table's actions. -/

namespace Sys2Proof.Machine

/-- What a transition of the buffer encoder may not touch (41_buffer_encoder.md R127): the record, QIN, QOUT and the
host's side. -/
structure SameOperands (s t : State) : Prop where
  qin : t.qin = s.qin
  qout : t.qout = s.qout
  recValid : t.recValid = s.recValid
  recVbat : t.recVbat = s.recVbat
  recVbus : t.recVbus = s.recVbus
  recBoot : t.recBoot = s.recBoot
  recTemp : t.recTemp = s.recTemp
  pending : t.pending = s.pending
  reads : t.reads = s.reads

theorem SameOperands.refl (s : State) : SameOperands s s := ⟨rfl, rfl, rfl, rfl, rfl, rfl, rfl, rfl, rfl⟩

theorem SameOperands.trans {s t u : State} (h : SameOperands s t) (h' : SameOperands t u) : SameOperands s u :=
  ⟨h'.qin.trans h.qin, h'.qout.trans h.qout, h'.recValid.trans h.recValid, h'.recVbat.trans h.recVbat,
    h'.recVbus.trans h.recVbus, h'.recBoot.trans h.recBoot, h'.recTemp.trans h.recTemp,
    h'.pending.trans h.pending, h'.reads.trans h.reads⟩

/-- The updates that only the buffer encoder makes touch none of these. -/
theorem setBuf_same (s : State) (v : Vector Byte 9) : SameOperands s (s.setBuf v) :=
  ⟨rfl, rfl, rfl, rfl, rfl, rfl, rfl, rfl, rfl⟩
theorem setBuild_same (s : State) (v : BuildUnit) : SameOperands s (s.setBuild v) :=
  ⟨rfl, rfl, rfl, rfl, rfl, rfl, rfl, rfl, rfl⟩
theorem setBufLen_same (s : State) (v : BitVec 4) : SameOperands s (s.setBufLen v) :=
  ⟨rfl, rfl, rfl, rfl, rfl, rfl, rfl, rfl, rfl⟩
theorem setStatus_same (s : State) (v : BitVec 3) : SameOperands s (s.setStatus v) :=
  ⟨rfl, rfl, rfl, rfl, rfl, rfl, rfl, rfl, rfl⟩

theorem appendByte_same (s : State) (b : Byte) : SameOperands s (appendByte s b) :=
  (setBuf_same s _).trans (setBuild_same _ _)

theorem appendCode_same (s : State) (h : Code) : SameOperands s (appendCode s h) :=
  (appendByte_same s _).trans (appendByte_same _ _)

theorem enter_same (s : State) (bs : BuildState) : SameOperands s (enter s bs) := setBuild_same s _

theorem buildTag_same (s : State) : SameOperands s (buildTag s) :=
  ((setBuf_same s _).trans (setBuild_same _ _)).trans (appendByte_same _ _)

theorem buildPatch_same (s : State) : SameOperands s (buildPatch s) :=
  ((setBuf_same s _).trans (setBufLen_same _ _)).trans (setStatus_same _ _)

theorem buildCodeField_same (s : State) (i : ℕ) (r : CodecResult) : SameOperands s (buildCodeField s i r) := by
  unfold buildCodeField
  split
  · exact ((setBuild_same s _).trans (appendCode_same _ _)).trans (setBuild_same _ _)
  · exact .refl s

theorem buildByteField_same (s : State) (i : ℕ) (b : Byte) : SameOperands s (buildByteField s i b) := by
  unfold buildByteField
  split
  · exact (setBuild_same s _).trans (appendByte_same _ _)
  · exact .refl s

/-- No transition touches the record, QIN, QOUT or the host's side. -/
theorem buildTransition_same (s : State) : SameOperands s (buildTransition s) := by
  unfold buildTransition
  split
  · exact .refl s
  · exact (buildTag_same s).trans (enter_same _ _)
  · exact (appendByte_same s 0).trans (enter_same _ _)
  · exact (buildCodeField_same s _ _).trans (enter_same _ _)
  · exact (buildCodeField_same s _ _).trans (enter_same _ _)
  · exact (buildByteField_same s _ _).trans (enter_same _ _)
  · exact (buildCodeField_same s _ _).trans (enter_same _ _)
  · exact (buildPatch_same s).trans (enter_same _ _)
  · exact enter_same s _

theorem buildTransitions_same (k : ℕ) (s : State) : SameOperands s (buildTransitions k s) := by
  induction k generalizing s with
  | zero => exact .refl s
  | succ k ih => exact (buildTransition_same s).trans (ih _)

/-- The machine's state after a transition, from each state of the table (41_buffer_encoder.md R121). -/
theorem buildTransition_bs (s : State) :
    (buildTransition s).build.bs =
      match s.build.bs with
      | .idle => .idle
      | .tag => .placeholder
      | .placeholder => .field0
      | .field0 => .field1
      | .field1 => .field2
      | .field2 => .field3
      | .field3 => .patch
      | .patch => .done
      | .done => .idle := by
  unfold buildTransition
  split <;> simp_all [enter]

/-- Each kind of transition, taken from a state whose machine state is known. -/
theorem buildTransition_tag {s : State} (h : s.build.bs = .tag) :
    buildTransition s = enter (buildTag s) .placeholder := by simp [buildTransition, h]
theorem buildTransition_placeholder {s : State} (h : s.build.bs = .placeholder) :
    buildTransition s = enter (appendByte s 0) .field0 := by simp [buildTransition, h]
theorem buildTransition_field0 {s : State} (h : s.build.bs = .field0) :
    buildTransition s = enter (buildCodeField s 0 (volt s.recVbat)) .field1 := by simp [buildTransition, h]
theorem buildTransition_field1 {s : State} (h : s.build.bs = .field1) :
    buildTransition s = enter (buildCodeField s 1 (volt s.recVbus)) .field2 := by simp [buildTransition, h]
theorem buildTransition_field2 {s : State} (h : s.build.bs = .field2) :
    buildTransition s = enter (buildByteField s 2 s.recBoot) .field3 := by simp [buildTransition, h]
theorem buildTransition_field3 {s : State} (h : s.build.bs = .field3) :
    buildTransition s = enter (buildCodeField s 3 (temp s.recTemp)) .patch := by simp [buildTransition, h]
theorem buildTransition_patch {s : State} (h : s.build.bs = .patch) :
    buildTransition s = enter (buildPatch s) .done := by simp [buildTransition, h]
theorem buildTransition_done {s : State} (h : s.build.bs = .done) :
    buildTransition s = enter s .idle := by simp [buildTransition, h]

/-- BUILD with the table's eight actions written out, one after the other. -/
theorem buildTransitions_eight (s : State) :
    buildTransitions 8 (enter s .tag) =
      let s1 := enter (buildTag (enter s .tag)) .placeholder
      let s2 := enter (appendByte s1 0) .field0
      let s3 := enter (buildCodeField s2 0 (volt s.recVbat)) .field1
      let s4 := enter (buildCodeField s3 1 (volt s.recVbus)) .field2
      let s5 := enter (buildByteField s4 2 s.recBoot) .field3
      let s6 := enter (buildCodeField s5 3 (temp s.recTemp)) .patch
      enter (enter (buildPatch s6) .done) .idle := by
  have e : ∀ (t : State) (b : BuildState), (enter t b).build.bs = b := fun _ _ => rfl
  have step : ∀ (k : ℕ) (t : State), buildTransitions (k + 1) t = buildTransitions k (buildTransition t) :=
    fun _ _ => rfl
  simp only [step]
  rw [buildTransition_tag (e _ _), buildTransition_placeholder (e _ _), buildTransition_field0 (e _ _),
    buildTransition_field1 (e _ _), buildTransition_field2 (e _ _), buildTransition_field3 (e _ _),
    buildTransition_patch (e _ _), buildTransition_done (e _ _)]
  simp only [buildTransitions, (enter_same _ _).recVbat, (enter_same _ _).recVbus, (enter_same _ _).recBoot,
    (enter_same _ _).recTemp, (buildTag_same _).recVbat, (buildTag_same _).recVbus, (buildTag_same _).recBoot,
    (buildTag_same _).recTemp, (appendByte_same _ _).recVbat, (appendByte_same _ _).recVbus,
    (appendByte_same _ _).recBoot, (appendByte_same _ _).recTemp, (buildCodeField_same _ _ _).recVbus,
    (buildCodeField_same _ _ _).recBoot, (buildCodeField_same _ _ _).recTemp, (buildByteField_same _ _ _).recTemp]

/-- The variables of BUILD's pseudocode as the machine holds them (41_buffer_encoder.md R122). -/
def State.vars (s : State) : BuildVars :=
  { buf := s.buf, n := s.build.n, fl := s.build.fl, sat := s.build.sat, nan := s.build.nan }

/-- What each action of the table does to the pseudocode's variables. -/
@[simp] theorem enter_vars (s : State) (bs : BuildState) : (enter s bs).vars = s.vars := rfl
@[simp] theorem setFlag_vars (s : State) (i : ℕ) :
    (setFlag s i).vars = { s.vars with fl := s.vars.fl ||| (1 : Byte) <<< i } := rfl
@[simp] theorem stick_vars (s : State) (r : CodecResult) :
    (stick s r).vars = { s.vars with sat := s.vars.sat || r.sat, nan := s.vars.nan || r.nan } := rfl
@[simp] theorem appendByte_vars (s : State) (b : Byte) :
    (appendByte s b).vars = { s.vars with buf := s.vars.buf.setIfInBounds s.vars.n b, n := s.vars.n + 1 } := rfl
@[simp] theorem appendCode_vars (s : State) (h : Code) :
    (appendCode s h).vars =
      { s.vars with
        buf := (s.vars.buf.setIfInBounds s.vars.n (h.extractLsb' 8 8)).setIfInBounds (s.vars.n + 1) (h.extractLsb' 0 8)
        n := s.vars.n + 2 } := by
  simp [appendCode]
@[simp] theorem buildTag_vars (s : State) :
    (buildTag s).vars =
      { buf := (Vector.replicate 9 0).setIfInBounds 0 Config.tag, n := 1, fl := 0, sat := false, nan := false } := rfl
@[simp] theorem buildCodeField_vars (s : State) (i : ℕ) (r : CodecResult) :
    (buildCodeField s i r).vars = if s.present i then s.vars.codeField ((1 : Byte) <<< i) r else s.vars := by
  unfold buildCodeField
  split
  · simp [BuildVars.codeField]
  · rfl
@[simp] theorem buildByteField_vars (s : State) (b : Byte) :
    (buildByteField s 2 b).vars = if s.present 2 then s.vars.bootField b else s.vars := by
  unfold buildByteField
  split
  · simp [BuildVars.bootField]
  · rfl

/-- Whether a field is present depends on REC_VALID alone. -/
theorem SameOperands.present {s t : State} (h : SameOperands s t) (i : ℕ) : t.present i = s.present i := by
  simp [State.present, h.recValid]

end Sys2Proof.Machine
end

