-- ==== Sys2Proof/Laws/Bus.lean ====
section
/-! SUPPORT. The spec lemmas of bus accesses: which accesses are admitted, and everything a performed event can do. -/

namespace Sys2Proof.Machine

/-- BASE is a multiple of 4 (20_memory.md R50: of 128). -/
theorem base_mod_four : Config.base % 4 = 0 := by
  simp only [Config.base, Config.windowBytes]; omega

@[simp] theorem memRead_base (off n : ℕ) : memRead (Config.base + off) n = .read off n := by
  simp [memRead]

@[simp] theorem memWrite_base (off n : ℕ) (v : Word) : memWrite (Config.base + off) n v = .write off n v := by
  simp [memWrite]

@[simp] theorem memWrite_base_zero (n : ℕ) (v : Word) : memWrite Config.base n v = .write 0 n v := by
  simp [memWrite]

/-- An access is admitted exactly when it is an aligned word of the window (20_memory.md R53). -/
theorem admission_eq_admitted {disp : ℤ} {n : ℕ} {r : Reg} :
    admission disp n = .admitted r ↔
      n = 4 ∧ 0 ≤ disp ∧ disp ≤ 124 ∧ disp % 4 = 0 ∧ r = Reg.ofOffset disp.toNat := by
  have hA : Config.accessBytes = 4 := rfl
  have hW : Config.windowBytes = 128 := rfl
  constructor
  · intro h
    unfold admission at h
    split_ifs at h
    cases h
    exact ⟨by omega, by omega, by omega, by omega, rfl⟩
  · rintro ⟨rfl, h0, h1, h2, rfl⟩
    unfold admission
    rw [if_neg (by omega), if_neg (by omega), if_neg (by omega), if_neg (by omega)]

/-- CMD is the register at displacement 0 and no other admitted one (20_memory.md R50). -/
theorem ofOffset_eq_cmd {disp : ℤ} (h0 : 0 ≤ disp) (h1 : disp ≤ 124) (h : Reg.ofOffset disp.toNat = .cmd) :
    disp = 0 := by
  interval_cases disp <;> first | rfl | (revert h; decide)

/-- Everything an event can do when it is performed: a read appends to `reads`, a write to CMD performs a command,
another write stores in its register, and a reset restores the registers. -/
theorem perform_cases {e : HostEvent} {s t : State} (h : perform e s = .next t) :
    (∃ disp n r, e = .read disp n ∧ admission disp n = .admitted r ∧ t = s.returnRead (r.read s)) ∨
    (∃ w, e = .write 0 4 w ∧ performCommand w s = .next t) ∨
    (∃ disp v r, e = .write disp 4 v ∧ r ≠ .cmd ∧ admission disp 4 = .admitted r ∧ t = r.write s v) ∨
    (e = .reset ∧ t = s.applyReset) := by
  cases e with
  | read disp n =>
    simp only [perform, busRead] at h
    split at h <;> simp_all
  | reset => simp_all [perform]
  | write disp n v =>
    simp only [perform, busWrite] at h
    cases ha : admission disp n with
    | refused why => simp [ha] at h
    | admitted r =>
      obtain ⟨rfl, h0, h1, h2, hr⟩ := admission_eq_admitted.mp ha
      by_cases hc : r = .cmd
      · subst hc
        obtain rfl := ofOffset_eq_cmd h0 h1 hr.symm
        exact .inr (.inl ⟨v, rfl, by simpa [ha] using h⟩)
      · refine .inr (.inr (.inl ⟨disp, v, r, rfl, hc, ha, ?_⟩))
        rw [ha] at h
        cases r <;> simp_all

/-- A 32-bit write to CMD performs its word. -/
theorem perform_cmd (w : Word) (s : State) : perform (.write 0 4 w) s = performCommand w s := rfl

/-- A performed command is a legal one or the illegal command. -/
theorem performCommand_cases {w : Word} {s t : State} (h : performCommand w s = .next t) :
    (∃ i, decode w = .legal i ∧ exec i s = .next t) ∨
    (∃ why, decode w = .illegal why ∧ t = s.setStatus (statusBits true false false)) := by
  simp only [performCommand] at h
  split at h
  · exact .inl ⟨_, ‹_›, h⟩
  · exact .inr ⟨_, ‹_›, by simpa [execIllegal] using h.symm⟩

end Sys2Proof.Machine
end

