-- ==== Sys2Proof/Laws/Codecs.lean ====
section
/-! SUPPORT. What the arithmetic of the codecs can answer: the decomposition against its rational form, the range tests
of the fixed-point codecs, and the two fields of the compact-float core. -/

namespace Sys2Proof.Machine

/-- The exponent the rational decomposition gives a non-zero value held in quanta. -/
theorem decompExp_quanta {q : ℕ} (hq : q ≠ 0) : decompExp ((q : ℚ) / 2 ^ 149) = (q.log2 : ℤ) + 1 - 149 := by
  have hp : (0 : ℚ) < (q : ℚ) / 2 ^ 149 := by positivity
  have lo : (2 : ℚ) ^ q.log2 ≤ q := by exact_mod_cast Nat.log2_self_le hq
  have hi : (q : ℚ) < 2 ^ (q.log2 + 1) := by exact_mod_cast Nat.lt_log2_self
  have scale : ∀ n : ℕ, (2 : ℚ) ^ ((n : ℤ) - 149) = 2 ^ n / 2 ^ 149 := fun n => by
    rw [zpow_sub₀ (by norm_num)]; norm_cast
  have h : Int.log 2 ((q : ℚ) / 2 ^ 149) = (q.log2 : ℤ) - 149 := by
    apply le_antisymm
    · rw [← Int.lt_add_one_iff, ← Int.lt_zpow_iff_log_lt (by norm_num) hp]
      rw [show (q.log2 : ℤ) - 149 + 1 = ((q.log2 + 1 : ℕ) : ℤ) - 149 by push_cast; ring]
      push_cast only [Nat.cast_ofNat]
      rw [scale]; gcongr
    · rw [← Int.zpow_le_iff_le_log (by norm_num) hp]
      push_cast only [Nat.cast_ofNat]
      rw [scale]; gcongr
  rw [decompExp, if_neg hp.ne', h]; ring

/-- The mantissa the rational decomposition gives a non-zero value held in quanta. -/
theorem decompMantissa_quanta {q : ℕ} (hq : q ≠ 0) :
    decompMantissa ((q : ℚ) / 2 ^ 149) = (q : ℚ) / 2 ^ (q.log2 + 1) := by
  rw [decompMantissa, decompExp_quanta hq,
    show -((q.log2 : ℤ) + 1 - 149) = (149 : ℕ) - ((q.log2 + 1 : ℕ) : ℤ) by push_cast; ring,
    zpow_sub₀ (by norm_num), zpow_natCast, zpow_natCast]
  field_simp

/-- SFX's range tests clamp or return the integer. -/
theorem saturateSigned_cases (r : ℤ) :
    (32767 < r ∧ saturateSigned r = saturated 0x7FFF) ∨ (r < -32768 ∧ saturateSigned r = saturated 0x8000) ∨
      (-32768 ≤ r ∧ r ≤ 32767 ∧ saturateSigned r = computed (BitVec.ofInt 16 r)) := by
  unfold saturateSigned; split_ifs <;> simp <;> omega

/-- UFX's range tests clamp or return the integer. -/
theorem saturateUnsigned_cases (r : ℤ) :
    (65535 < r ∧ saturateUnsigned r = saturated 0xFFFF) ∨ (r < 0 ∧ saturateUnsigned r = saturated 0x0000) ∨
      (0 ≤ r ∧ r ≤ 65535 ∧ saturateUnsigned r = computed (BitVec.ofInt 16 r)) := by
  unfold saturateUnsigned; split_ifs <;> simp <;> omega

/-- Where the compact-float core does not overflow, its fields fit their places. -/
theorem cf_some {fb q ex f : ℕ} (hfb : 0 < fb) (h : cf fb q = some (ex, f)) : ex ≤ 15 ∧ f < 2 ^ fb := by
  have lt : 2 ^ (fb - 1) < 2 ^ fb := Nat.pow_lt_pow_right (by norm_num) (by omega)
  have cast : (2 : ℤ) ^ fb = ((2 ^ fb : ℕ) : ℤ) := by push_cast; rfl
  have castHalf : (2 : ℤ) ^ (fb - 1) = ((2 ^ (fb - 1) : ℕ) : ℤ) := by push_cast; rfl
  have pos : 0 < 2 ^ fb := by positivity
  simp only [cf, cast, castHalf] at h
  generalize rhu _ _ = r at h
  generalize rebias _ = e at h
  split_ifs at h
  all_goals
    simp only [Option.some.injEq, Prod.mk.injEq] at h
    omega

end Sys2Proof.Machine
end

