-- ==== Sys2Proof/Laws/Encoding.lean ====
section
/-! SUPPORT. The fields of a word and the word of its fields are inverse, so that facts about words reduce to facts
about fields. -/

namespace Sys2Proof

/-- Fields to word and back. -/
theorem Command.ofWord_toWord (c : Command) : Command.ofWord c.toWord = c := by
  obtain ⟨r, s, o⟩ := c
  simp only [Command.ofWord, Command.toWord, Command.mk.injEq]
  refine ⟨?_, ?_, ?_⟩ <;>
    · apply BitVec.eq_of_getLsbD_eq
      intro i hi
      simp
      grind

/-- Word to fields and back. -/
theorem Command.toWord_ofWord (w : Word) : (Command.ofWord w).toWord = w := by
  apply BitVec.eq_of_getLsbD_eq
  intro i hi
  simp [Command.ofWord, Command.toWord]
  grind

/-- A word is determined by its fields. -/
theorem Command.ofWord_inj {w w' : Word} (h : Command.ofWord w = Command.ofWord w') : w = w' := by
  rw [← Command.toWord_ofWord w, h, Command.toWord_ofWord]

end Sys2Proof
end

