-- ==== Sys2Proof/Laws/PerInstr.lean ====
section
/-! SUPPORT. The per-instruction statements over the constructors of Instr. -/

namespace Sys2Proof.Laws

/-- The word of an instruction has the instruction's fields, and they are well formed (30_encoding.md R70 to R74). -/
def Encoding.Statement (i : Instr) : Prop :=
  Command.ofWord (encode i) = i.command ∧ i.command.wellFormed = true ∧ i.wellFormed = true

theorem Encoding.nop : Encoding.Statement .nop := ⟨by decide, by decide, rfl⟩
theorem Encoding.qsfxS0 : Encoding.Statement .qsfxS0 := ⟨by decide, by decide, rfl⟩
theorem Encoding.qsfxS8 : Encoding.Statement .qsfxS8 := ⟨by decide, by decide, rfl⟩
theorem Encoding.qsfxS12 : Encoding.Statement .qsfxS12 := ⟨by decide, by decide, rfl⟩
theorem Encoding.qufxS0 : Encoding.Statement .qufxS0 := ⟨by decide, by decide, rfl⟩
theorem Encoding.qufxS8 : Encoding.Statement .qufxS8 := ⟨by decide, by decide, rfl⟩
theorem Encoding.qufxS12 : Encoding.Statement .qufxS12 := ⟨by decide, by decide, rfl⟩
theorem Encoding.quflt16 : Encoding.Statement .quflt16 := ⟨by decide, by decide, rfl⟩
theorem Encoding.qsflt16 : Encoding.Statement .qsflt16 := ⟨by decide, by decide, rfl⟩
theorem Encoding.build : Encoding.Statement .build := ⟨by decide, by decide, rfl⟩

end Sys2Proof.Laws
end

