-- ==== Sys2Proof/Laws/Quantizer.lean ====
section
/-! SUPPORT. The spec lemmas of the register transport, of the rounding primitive and of STATUS. -/

namespace Sys2Proof.Machine

@[simp] theorem quantize_qout (c : Word → CodecResult) (s : State) : (quantize c s).qout = (c s.qin).code := rfl
@[simp] theorem quantize_status (c : Word → CodecResult) (s : State) :
    (quantize c s).status = statusBits false (c s.qin).nan (c s.qin).sat := rfl
@[simp] theorem quantize_qin (c : Word → CodecResult) (s : State) : (quantize c s).qin = s.qin := rfl
@[simp] theorem quantize_recValid (c : Word → CodecResult) (s : State) : (quantize c s).recValid = s.recValid := rfl
@[simp] theorem quantize_recVbat (c : Word → CodecResult) (s : State) : (quantize c s).recVbat = s.recVbat := rfl
@[simp] theorem quantize_recVbus (c : Word → CodecResult) (s : State) : (quantize c s).recVbus = s.recVbus := rfl
@[simp] theorem quantize_recBoot (c : Word → CodecResult) (s : State) : (quantize c s).recBoot = s.recBoot := rfl
@[simp] theorem quantize_recTemp (c : Word → CodecResult) (s : State) : (quantize c s).recTemp = s.recTemp := rfl
@[simp] theorem quantize_bufLen (c : Word → CodecResult) (s : State) : (quantize c s).bufLen = s.bufLen := rfl
@[simp] theorem quantize_buf (c : Word → CodecResult) (s : State) : (quantize c s).buf = s.buf := rfl
@[simp] theorem quantize_build (c : Word → CodecResult) (s : State) : (quantize c s).build = s.build := rfl
@[simp] theorem quantize_pending (c : Word → CodecResult) (s : State) : (quantize c s).pending = s.pending := rfl
@[simp] theorem quantize_reads (c : Word → CodecResult) (s : State) : (quantize c s).reads = s.reads := rfl

/-- Each STATUS bit reads back what was packed (10_state.md R26). -/
@[simp] theorem statusBits_ill (i n a : Bool) : (statusBits i n a)[0] = i := by
  cases i <;> cases n <;> cases a <;> rfl
@[simp] theorem statusBits_nan (i n a : Bool) : (statusBits i n a)[1] = n := by
  cases i <;> cases n <;> cases a <;> rfl
@[simp] theorem statusBits_sat (i n a : Bool) : (statusBits i n a)[2] = a := by
  cases i <;> cases n <;> cases a <;> rfl

/-- The accessors of a state whose STATUS was packed. -/
theorem State.ill_eq {s : State} {i n a : Bool} (h : s.status = statusBits i n a) : s.ill = i := by
  simp [State.ill, h]
theorem State.nan_eq {s : State} {i n a : Bool} (h : s.status = statusBits i n a) : s.nan = n := by
  simp [State.nan, h]
theorem State.sat_eq {s : State} {i n a : Bool} (h : s.status = statusBits i n a) : s.sat = a := by
  simp [State.sat, h]

/-- `floor(num / den + 1/2)` is at least `r` exactly when `num / den` is at least `r − 1/2`. -/
theorem le_rhu_iff {num r : ℤ} {den : ℕ} (hd : 0 < den) : r ≤ rhu num den ↔ (2 * r - 1) * den ≤ 2 * num := by
  have h2 : (0 : ℤ) < 2 * den := by omega
  rw [rhu, Int.le_ediv_iff_mul_le h2]
  constructor <;> intro h <;> linarith

/-- Rounding is monotone in the numerator. -/
theorem rhu_mono {a b : ℤ} {den : ℕ} (hd : 0 < den) (h : a ≤ b) : rhu a den ≤ rhu b den :=
  (le_rhu_iff hd).mpr (le_trans ((le_rhu_iff hd).mp le_rfl) (by omega))

/-- The operand is a NaN exactly when the pattern is (30_encoding.md R80, R81). -/
@[simp] theorem f32_eq_nan {w : Word} : f32 w = .nan ↔ isNaN w = true := by
  simp only [f32]
  split_ifs <;> simp_all

/-- Saturating results never carry the NAN flag. -/
@[simp] theorem saturateSigned_nan (r : ℤ) : (saturateSigned r).nan = false := by
  simp only [saturateSigned]; split_ifs <;> rfl
@[simp] theorem saturateUnsigned_nan (r : ℤ) : (saturateUnsigned r).nan = false := by
  simp only [saturateUnsigned]; split_ifs <;> rfl

@[simp] theorem nanCodec_nan : nanCodec.nan = true := rfl
@[simp] theorem nanCodec_sat : nanCodec.sat = false := rfl
@[simp] theorem nanCodec_code : nanCodec.code = 0 := rfl
@[simp] theorem saturated_nan (h : Code) : (saturated h).nan = false := rfl
@[simp] theorem saturated_sat (h : Code) : (saturated h).sat = true := rfl
@[simp] theorem saturated_code (h : Code) : (saturated h).code = h := rfl
@[simp] theorem computed_nan (h : Code) : (computed h).nan = false := rfl
@[simp] theorem computed_sat (h : Code) : (computed h).sat = false := rfl
@[simp] theorem computed_code (h : Code) : (computed h).code = h := rfl

/-- On a NaN each codec returns the one NaN result (40_quantizer.md R99). -/
theorem sfx_of_isNaN {k : ℕ} {w : Word} (h : isNaN w = true) : sfx k w = nanCodec := by
  simp [sfx, f32_eq_nan.mpr h]
theorem ufx_of_isNaN {k : ℕ} {w : Word} (h : isNaN w = true) : ufx k w = nanCodec := by
  simp [ufx, f32_eq_nan.mpr h]
theorem uflt_of_isNaN {w : Word} (h : isNaN w = true) : uflt w = nanCodec := by simp [uflt, f32_eq_nan.mpr h]
theorem sflt_of_isNaN {w : Word} (h : isNaN w = true) : sflt w = nanCodec := by simp [sflt, f32_eq_nan.mpr h]

/-- Each codec reports NAN exactly for a NaN operand (10_state.md R28). -/
@[simp] theorem sfx_nan (k : ℕ) (w : Word) : (sfx k w).nan = isNaN w := by
  by_cases h : isNaN w = true
  · rw [sfx_of_isNaN h, h, nanCodec_nan]
  · rw [Bool.eq_false_iff.mpr h]
    unfold sfx
    split <;> simp_all
@[simp] theorem ufx_nan (k : ℕ) (w : Word) : (ufx k w).nan = isNaN w := by
  by_cases h : isNaN w = true
  · rw [ufx_of_isNaN h, h, nanCodec_nan]
  · rw [Bool.eq_false_iff.mpr h]
    unfold ufx
    split <;> simp_all
@[simp] theorem uflt_nan (w : Word) : (uflt w).nan = isNaN w := by
  by_cases h : isNaN w = true
  · rw [uflt_of_isNaN h, h, nanCodec_nan]
  · rw [Bool.eq_false_iff.mpr h]
    unfold uflt
    split <;> simp_all
    split_ifs <;> try rfl
    split <;> rfl
@[simp] theorem sflt_nan (w : Word) : (sflt w).nan = isNaN w := by
  by_cases h : isNaN w = true
  · rw [sflt_of_isNaN h, h, nanCodec_nan]
  · rw [Bool.eq_false_iff.mpr h]
    unfold sflt
    split <;> simp_all
    split_ifs <;> first | rfl | (split <;> rfl)

end Sys2Proof.Machine
end

