-- ==== Sys2Proof/Tests/Slice0.lean ====
section
/-! SUPPORT. Tests: ill-formed commands and accesses are refused, command words decode, one step per instruction on the
vectors of 95_test_vectors.md, and for each statement with hypotheses a state and operands that meet them. -/

open Sys2Proof Sys2Proof.Machine

namespace Sys2Proof.Tests

/-! Well-formedness: one ill-formed term for each check -/

theorem test_ill_formed_rsv : Command.wellFormed { rsv := 1, sc := 0b00, op := 0x00 } = false := by decide
theorem test_ill_formed_op : Command.wellFormed { rsv := 0, sc := 0b00, op := 0x05 } = false := by decide
theorem test_ill_formed_reserved_scale : Command.wellFormed { rsv := 0, sc := 0b11, op := 0x01 } = false := by decide
theorem test_ill_formed_scale_not_taken : Command.wellFormed { rsv := 0, sc := 0b01, op := 0x03 } = false := by decide
theorem test_well_formed_scaled : Command.wellFormed { rsv := 0, sc := 0b10, op := 0x02 } = true := by decide

theorem test_not_admitted_width : HostEvent.isAdmitted (.read 0x08 2) = false := by decide
theorem test_not_admitted_misaligned : HostEvent.isAdmitted (.read 0x0A 4) = false := by decide
theorem test_not_admitted_above : HostEvent.isAdmitted (.write 0x80 4 0) = false := by decide
theorem test_not_admitted_below : HostEvent.isAdmitted (.write (-4) 4 0) = false := by decide
theorem test_admitted_last_word : HostEvent.isAdmitted (.read 0x7C 4) = true := by decide

/-! Decoding: each word written out as RSV, SC, OP (30_encoding.md R70 to R72) -/

theorem test_decode_nop : decode 0b0000000000000000000000_00_00000000 = .legal .nop := by decide
theorem test_decode_qsfxS0 : decode 0b0000000000000000000000_00_00000001 = .legal .qsfxS0 := by decide
theorem test_decode_qsfxS8 : decode 0b0000000000000000000000_01_00000001 = .legal .qsfxS8 := by decide
theorem test_decode_qsfxS12 : decode 0b0000000000000000000000_10_00000001 = .legal .qsfxS12 := by decide
theorem test_decode_qufxS0 : decode 0b0000000000000000000000_00_00000010 = .legal .qufxS0 := by decide
theorem test_decode_qufxS8 : decode 0b0000000000000000000000_01_00000010 = .legal .qufxS8 := by decide
theorem test_decode_qufxS12 : decode 0b0000000000000000000000_10_00000010 = .legal .qufxS12 := by decide
theorem test_decode_quflt16 : decode 0b0000000000000000000000_00_00000011 = .legal .quflt16 := by decide
theorem test_decode_qsflt16 : decode 0b0000000000000000000000_00_00000100 = .legal .qsflt16 := by decide
theorem test_decode_build : decode 0b0000000000000000000000_00_00010000 = .legal .build := by decide

/-- 95_test_vectors.md P3 line 6. -/
theorem test_illegal_reserved_scale : decode 0x00000301 = .illegal .reservedScale := by decide
/-- 95_test_vectors.md P3 line 7. -/
theorem test_illegal_scale_not_taken : decode 0x00000103 = .illegal .scaleNotTaken := by decide
/-- 42_control.md R141. -/
theorem test_illegal_build_scale : decode 0x00000110 = .illegal .scaleNotTaken := by decide
/-- 42_control.md R141. -/
theorem test_illegal_op : decode 0x00000005 = .illegal .undefinedOp := by decide
/-- 30_encoding.md R73, the lowest and the highest RSV bit. -/
theorem test_illegal_rsv : decode 0x00000400 = .illegal .reservedBits ∧ decode 0x80000010 = .illegal .reservedBits := by decide

theorem test_decodeTableWord : decodeTableWord 32 0x00000201 = some .qsfxS12 ∧ decodeTableWord 32 0x00000301 = none := by
  decide

/-! One step of each instruction. `afterCommand q w` is the state after writing the word `w` to CMD with `q` in QIN. -/

/-- Reset with an operand in QIN. -/
def withQin (q : Word) : State := State.reset.setQin q

/-- Reset with a value in every register a command could wrongly touch. -/
def busy : State :=
  { State.reset with
    status := 0b111, qin := 0x40533333, qout := 0xBEEF, recValid := 0xF, recVbat := 0x41000000,
    recVbus := 0xC1000100, recBoot := 0xFF, recTemp := 0x7FC00000, bufLen := 4, buf := #v[0x2B, 1, 2, 3, 4, 5, 6, 7, 8] }

/-- QOUT and STATUS after one step that writes the word to CMD, if the step answers a next state. -/
def outcome (q w : Word) : Option (Code × BitVec 3) :=
  match step ((withQin q).withFetchWord 32 w.toNat) with
  | .next t => some (t.qout, t.status)
  | .fault _ => none
  | .refused _ => none

/-- BUF, BUF_LEN and STATUS after one step that writes the word of `build` to CMD. -/
def built (s : State) : Option (List Byte × BitVec 4 × BitVec 3) :=
  match step (s.withFetchWord 32 0x00000010) with
  | .next t => some (t.buf.toList, t.bufLen, t.status)
  | .fault _ => none
  | .refused _ => none

/-- 42_control.md R140: NOP after anything clears STATUS and leaves every other register. -/
theorem test_nop : step (busy.withFetchWord 32 0x00000000) = .next { busy with status := 0 } := rfl
/-- 42_control.md R141, example: the word 0x00000005. -/
theorem test_illegal_word : step (busy.withFetchWord 32 0x00000005) = .next { busy with status := 0b001 } := rfl
/-- 40_quantizer.md R93, corner case: the tie −2.5 goes up to −2. -/
theorem test_qsfxS0_tie : outcome 0xC0200000 0x00000001 = some (0xFFFE, 0) := by decide
/-- 40_quantizer.md R93, corner case: −32769 saturates. -/
theorem test_qsfxS0_saturates : outcome 0xC7000100 0x00000001 = some (0x8000, 0b100) := by decide
/-- 95_test_vectors.md X37: −40 degrees. -/
theorem test_qsfxS8_negative : outcome 0xC2200000 0x00000101 = some (0xD800, 0) := by decide
/-- 95_test_vectors.md X39: 32767.5 after scaling. -/
theorem test_qsfxS8_saturates : outcome 0x42FFFF00 0x00000101 = some (0x7FFF, 0b100) := by decide
/-- 95_test_vectors.md X31: −32768.5 after scaling rounds to the minimum. -/
theorem test_qsfxS12_minimum : outcome 0xC1000080 0x00000201 = some (0x8000, 0) := by decide
/-- 95_test_vectors.md X26. -/
theorem test_qsfxS12_saturates : outcome 0x40FFFF00 0x00000201 = some (0x7FFF, 0b100) := by decide
/-- 95_test_vectors.md Y7. -/
theorem test_qufxS0_saturates : outcome 0x477FFF80 0x00000002 = some (0xFFFF, 0b100) := by decide
/-- 95_test_vectors.md Y3. -/
theorem test_qufxS0_below_zero : outcome 0xBF000001 0x00000002 = some (0x0000, 0b100) := by decide
/-- 95_test_vectors.md Y19. -/
theorem test_qufxS8 : outcome 0x41CC0000 0x00000102 = some (0x1980, 0) := by decide
/-- 95_test_vectors.md Y21. -/
theorem test_qufxS8_saturates : outcome 0x437FFF80 0x00000102 = some (0xFFFF, 0b100) := by decide
/-- 95_test_vectors.md Y15. -/
theorem test_qufxS12_top : outcome 0x417FFF00 0x00000202 = some (0xFFFF, 0) := by decide
/-- 95_test_vectors.md Y18. -/
theorem test_qufxS12_below_zero : outcome 0xC0533333 0x00000202 = some (0x0000, 0b100) := by decide
/-- 95_test_vectors.md U18: the rounding carry. -/
theorem test_quflt16_carry : outcome 0x3EFFFFFF 0x00000003 = some (0xF800, 0) := by decide
/-- 95_test_vectors.md U15: the exponent clamp keeps the fraction. -/
theorem test_quflt16_clamp : outcome 0x37000000 0x00000003 = some (0x0800, 0) := by decide
/-- 95_test_vectors.md S7: sign and magnitude. -/
theorem test_qsflt16_negative : outcome 0xBDCCCCCD 0x00000004 = some (0xE666, 0) := by decide
/-- 95_test_vectors.md S11: negative overflow keeps the sign. -/
theorem test_qsflt16_overflow : outcome 0xBF7FF000 0x00000004 = some (0xFFFF, 0b100) := by decide

/-- 95_test_vectors.md B1: every field, saturated both ways, and a NaN. -/
theorem test_build_all_fields : built busy = some ([0x2B, 0x0F, 0x7F, 0xFF, 0x80, 0x00, 0xFF, 0x00, 0x00], 9, 0b110) := by
  decide
/-- 95_test_vectors.md B4: an absent Vbus leaves no gap. -/
theorem test_build_absent_field :
    built { busy with recValid := 0x5, recVbat := 0x40533333, recBoot := 0x78 } =
      some ([0x2B, 0x05, 0x34, 0xCD, 0x78, 0, 0, 0, 0], 5, 0) := by decide

/-- 95_test_vectors.md B4: REC_BOOT keeps bits 7:0. -/
theorem test_write_boot : perform (wr .recBoot 0x12345678) State.reset = .next { State.reset with recBoot := 0x78 } := by
  simp only [wr, Reg.offset, memWrite_base]; rfl
/-- 95_test_vectors.md P5, last line: the reserved offset 0x7C reads 0. -/
theorem test_read_reserved : perform (memRead (Config.base + 0x7C) 4) busy = .next (busy.returnRead 0) := by
  simp only [memRead_base]; rfl
/-- 95_test_vectors.md P1, line 9: STATUS as read. -/
theorem test_read_status : perform (rd .status) { busy with status := 0b100 } =
    .next ({ busy with status := 0b100 }.returnRead 0x00000004) := by
  simp only [rd, Reg.offset, memRead_base]; rfl
/-- 20_memory.md R53: an 8-bit access is refused. -/
theorem test_refuse_byte : perform (.read 0x08 1) State.reset = .refused .accessWidth := rfl
/-- 20_memory.md R53: the last four bytes of the window, misaligned, cross its end. -/
theorem test_refuse_crossing : perform (.read 0x7E 4) State.reset = .refused .crossesWindow := rfl
/-- 20_memory.md R53: the first byte past the window. -/
theorem test_refuse_outside : perform (.write 0x80 4 0) State.reset = .refused .outsideWindow := rfl
/-- 20_memory.md R53: `addr mod 4 ≠ 0`. -/
theorem test_refuse_misaligned : perform (.write 0x09 4 0) State.reset = .refused .misaligned := rfl
/-- 70_reset_and_hazards.md R170. -/
theorem test_reset : perform .reset busy = .next State.reset := rfl

/-! Witnesses: for each statement with hypotheses, operands and a state that meet all of them, one for each clause and at
the ends of its ranges. The equations of rationals are evaluated by the kernel. -/

theorem test_witness_ReservedBitsMakeIllegal :
    (∃ b, 10 ≤ b ∧ b ≤ 31 ∧ (0x00000400 : Word).getLsbD b = true) ∧
      ∃ b, 10 ≤ b ∧ b ≤ 31 ∧ (0x80000010 : Word).getLsbD b = true :=
  ⟨⟨10, by decide⟩, ⟨31, by decide⟩⟩

theorem test_witness_StepPerformsOldestEvent :
    (State.reset.setPending [rd .qout, .reset]).pending = rd .qout :: [.reset] ∧ State.reset.pending = [] := ⟨rfl, rfl⟩

theorem test_witness_StepRunsDecodedCommand :
    (State.reset.setPending [cmd .qsfxS12, rd .qout]).pending =
      memWrite (Config.base + 0x00) 4 0x00000201 :: [rd .qout] ∧ decode 0x00000201 = .legal .qsfxS12 := ⟨rfl, rfl⟩

theorem test_witness_IllegalWordOnlySetsIll : ∀ w ∈ ([0x00000301, 0x00000005, 0xFFFFFFFF] : List Word),
    w ∉ ([0x00000000, 0x00000001, 0x00000101, 0x00000201, 0x00000002, 0x00000102, 0x00000202, 0x00000003,
      0x00000004, 0x00000010] : List Word) := by
  simp only [List.forall_mem_cons, List.not_mem_nil, false_implies, implies_true, and_true]; decide

/-- The first and the last admitted address, and one address for each condition that fails. -/
theorem test_witness_AdmittedAccessesAreAlignedWords :
    let ok := fun addr n : ℕ => n = 4 ∧ Config.base ≤ addr ∧ addr ≤ Config.base + 0x7F ∧ addr % 4 = 0
    ok Config.base 4 ∧ ok (Config.base + 0x7C) 4 ∧ ¬ok Config.base 2 ∧ ¬ok (Config.base + 0x80) 4 ∧
      ¬ok (Config.base + 0x7F) 4 := by
  have := base_mod_four
  dsimp only
  omega

theorem test_witness_RefusalNames :
    (2 ≠ 4) ∧ Config.base + 128 ≤ Config.base + 128 ∧
    (∀ addr ∈ [Config.base + 125, Config.base + 127], addr < Config.base + 128 ∧ Config.base + 128 < addr + 4) ∧
    ∀ addr ∈ [Config.base + 1, Config.base + 123],
      Config.base ≤ addr ∧ addr + 4 ≤ Config.base + 128 ∧ addr % 4 ≠ 0 := by
  have := base_mod_four
  simp; omega

theorem test_witness_ReservedOffsetsReadZeroIgnoreWrites :
    ∀ off ∈ [0x2C, 0x54, 0x7C], off % 4 = 0 ∧ (off = 0x2C ∨ (0x54 ≤ off ∧ off ≤ 0x7C)) := by decide

theorem test_witness_EventsKeepHostSide :
    ∀ e ∈ [HostEvent.read 0x7C 4, .write 0x00 4 0x00000010, .reset], ∃ t, perform e busy = .next t := by
  simp only [List.forall_mem_cons, List.not_mem_nil, false_implies, implies_true, and_true]
  exact ⟨⟨_, rfl⟩, ⟨_, rfl⟩, ⟨_, rfl⟩⟩

theorem test_witness_NopClearsStatusOnly :
    ∀ w ∈ ([0x00000100, 0x80000000] : List Word), w.extractLsb' 0 8 = 0x00 ∧ w ≠ 0x00000000 := by
  simp only [List.forall_mem_cons, List.not_mem_nil, false_implies, implies_true, and_true]; decide

theorem test_witness_RoundingIsHalfUp : 0 < 1 ∧ 0 < quantaPerUnit := by decide

theorem test_witness_DecompositionIsUnique :
    (∀ a ∈ [(0 : ℚ), 1 / 2, 1 - 1 / 2 ^ 24], 0 ≤ a ∧ a < 1) ∧ ∀ q ∈ [0, 1, 2 ^ 149 - 1], q < 2 ^ 149 := by
  decide +kernel

theorem test_witness_DecompositionIsUnique_pair : IsDecomp (3 / 8) (3 / 4) (-1) := by
  right; norm_num

theorem test_witness_QsfxQuantizesExactly : (withQin 0x40533333).qin = 0x40533333 := rfl

theorem test_witness_QufxQuantizesExactly : (withQin 0x41CC0000).qin = 0x41CC0000 := rfl

theorem test_witness_Quflt16QuantizesExactly : (withQin 0x3F400000).qin = 0x3F400000 ∧
    ∀ w ∈ ([0x00000103, 0x00000303] : List Word), w.extractLsb' 0 8 = 0x03 ∧ w.extractLsb' 8 2 ≠ 0b00 := by
  simp only [List.forall_mem_cons, List.not_mem_nil, false_implies, implies_true, and_true]; decide

theorem test_witness_Qsflt16QuantizesExactly : (withQin 0xBDCCCCCD).qin = 0xBDCCCCCD ∧
    ∀ w ∈ ([0x00000104, 0x00000304] : List Word), w.extractLsb' 0 8 = 0x04 ∧ w.extractLsb' 8 2 ≠ 0b00 := by
  simp only [List.forall_mem_cons, List.not_mem_nil, false_implies, implies_true, and_true]; decide

theorem test_witness_NanGivesZeroCode : ∀ w ∈ ([0x7F800001, 0xFFFFFFFF] : List Word),
    (withQin w).qin.extractLsb' 23 8 = 255 ∧ (withQin w).qin.extractLsb' 0 23 ≠ 0 := by
  simp only [List.forall_mem_cons, List.not_mem_nil, false_implies, implies_true, and_true]; decide

theorem test_witness_FixedPointCodecsMonotone :
    f32Value (withQin 0xFF800000).qin = some .negInf ∧ f32Value (withQin 0xBF800000).qin = some (.fin (-1)) ∧
      f32Value (withQin 0x3F800000).qin = some (.fin 1) ∧ f32Value (withQin 0x7F800000).qin = some .posInf ∧
      ExtRat.negInf.le (.fin (-1)) ∧ (ExtRat.fin (-1)).le (.fin 1) ∧ (ExtRat.fin 1).le .posInf := by
  refine ⟨by decide +kernel, by decide +kernel, by decide +kernel, by decide +kernel, trivial, ?_, trivial⟩
  norm_num [ExtRat.le]

theorem test_witness_DomainScalerRanges :
    f32Value (withQin 0xC1000080).qin = some (.fin (-8.0001220703125)) ∧
      f32Value (withQin 0x40FFFF00).qin = some (.fin 7.9998779296875) ∧
      f32Value (withQin 0xC3000080).qin = some (.fin (-128.001953125)) ∧
      f32Value (withQin 0x42FFFF00).qin = some (.fin 127.998046875) := by
  decide +kernel

theorem test_witness_CompactFloatSaturationThresholds :
    f32Value (withQin 0x80000000).qin = some (.fin 0) ∧
      f32Value (withQin 0x3F7FF800).qin = some (.fin (1 - 1 / 2 ^ 13)) ∧
      f32Value (withQin 0xBF7FF000).qin = some (.fin (-(1 - 1 / 2 ^ 12))) := by
  decide +kernel

/-- The smallest operand, 2^-17, the largest operand below 2^-16, a negative operand, and zero. -/
theorem test_witness_ExponentClampLosesScale :
    (f32Value (withQin 0x00000001).qin = some (.fin (1 / 2 ^ 149)) ∧
      f32Value (withQin 0x00000002).qin = some (.fin (2 * (1 / 2 ^ 149)))) ∧
    (f32Value (withQin 0x37000000).qin = some (.fin (1 / 2 ^ 17)) ∧
      f32Value (withQin 0x37800000).qin = some (.fin (2 * (1 / 2 ^ 17)))) ∧
    (f32Value (withQin 0x377FFFFF).qin = some (.fin (1 / 2 ^ 16 - 1 / 2 ^ 40)) ∧
      f32Value (withQin 0x37FFFFFF).qin = some (.fin (2 * (1 / 2 ^ 16 - 1 / 2 ^ 40)))) ∧
    (f32Value (withQin 0xB7000000).qin = some (.fin (-1 / 2 ^ 17)) ∧
      f32Value (withQin 0xB7800000).qin = some (.fin (2 * (-1 / 2 ^ 17)))) ∧
    (f32Value (withQin 0x80000000).qin = some (.fin 0) ∧ f32Value (withQin 0x00000000).qin = some (.fin (2 * 0))) ∧
    ∀ v ∈ [(1 / 2 ^ 149 : ℚ), 1 / 2 ^ 17, 1 / 2 ^ 16 - 1 / 2 ^ 40, -1 / 2 ^ 17, 0], |v| < 1 / 2 ^ 16 := by
  decide +kernel

/-- Each bound reached exactly, the least negative operand, and the infinities. -/
theorem test_witness_CompactFloatBounds :
    (f32Value (withQin 0x80000001).qin = some (.fin (-1 / 2 ^ 149)) ∧ ¬(ExtRat.fin 0).le (.fin (-1 / 2 ^ 149))) ∧
    (f32Value (withQin 0xFF800000).qin = some .negInf ∧ ¬(ExtRat.fin 0).le .negInf ∧ ExtRat.negInf.le (.fin (-1))) ∧
    (f32Value (withQin 0x3F800000).qin = some (.fin 1) ∧ (ExtRat.fin 1).le (.fin 1)) ∧
    (f32Value (withQin 0x7F800000).qin = some .posInf ∧ (ExtRat.fin 1).le .posInf) ∧
    (f32Value (withQin 0xBF800000).qin = some (.fin (-1)) ∧ (ExtRat.fin (-1)).le (.fin (-1))) := by
  refine ⟨⟨by decide +kernel, ?_⟩, ⟨by decide +kernel, not_false, trivial⟩, ⟨by decide +kernel, le_refl _⟩,
    ⟨by decide +kernel, trivial⟩, ⟨by decide +kernel, le_refl _⟩⟩
  norm_num [ExtRat.le]

/-- A carry below exponent 15 and the carry that overflows, for each fraction width; a negative operand too. -/
theorem test_witness_CompactFloatCarry :
    (f32Value (withQin 0x3EFFFFFF).qin = some (.fin (1 / 2 - 1 / 2 ^ 25)) ∧
      roundHalfUp (decompMantissa (1 / 2 - 1 / 2 ^ 25) * 2 ^ 12) = 2 ^ 12 ∧ decompExp (1 / 2 - 1 / 2 ^ 25) < 0) ∧
    (f32Value (withQin 0x3F7FFFFF).qin = some (.fin (1 - 1 / 2 ^ 24)) ∧
      roundHalfUp (decompMantissa (1 - 1 / 2 ^ 24) * 2 ^ 12) = 2 ^ 12 ∧ decompExp (1 - 1 / 2 ^ 24) = 0) ∧
    (f32Value (withQin 0xBEFFFFFF).qin = some (.fin (-(1 / 2 - 1 / 2 ^ 25))) ∧
      roundHalfUp (decompMantissa |-(1 / 2 - 1 / 2 ^ 25)| * 2 ^ 11) = 2 ^ 11 ∧ decompExp |-(1 / 2 - 1 / 2 ^ 25)| < 0) ∧
    f32Value (withQin 0xBF7FFFFF).qin = some (.fin (-(1 - 1 / 2 ^ 24))) ∧
      roundHalfUp (decompMantissa |-(1 - 1 / 2 ^ 24)| * 2 ^ 11) = 2 ^ 11 ∧ decompExp |-(1 - 1 / 2 ^ 24)| = 0 := by
  decide +kernel

/-- The carry operands lie strictly between 0 and 1 in magnitude. -/
theorem test_witness_CompactFloatCarry_range :
    ∀ v ∈ [(1 / 2 - 1 / 2 ^ 25 : ℚ), 1 - 1 / 2 ^ 24, |-(1 / 2 - 1 / 2 ^ 25)|, |-(1 - 1 / 2 ^ 24)|], 0 < v ∧ v < 1 := by
  decide +kernel

theorem test_witness_SignedCompactFloatIsSignMagnitude : ∀ w ∈ ([0x00000001, 0x3F000000, 0xFF800000] : List Word),
    isNaN (withQin w).qin = false ∧ isZero (withQin w).qin = false := by
  simp only [List.forall_mem_cons, List.not_mem_nil, false_implies, implies_true, and_true]; decide

theorem test_witness_BuildStatus :
    (sfxSpec 12 0x41000000).sat = true ∧ (sfxSpec 8 0xFF800000).sat = true ∧ isNaN 0x7FC00000 = true := by
  decide +kernel

theorem test_witness_BuildEmptyRecord : State.reset.recValid = 0 := rfl

/-- The records of the four scenarios. -/
theorem test_witness_BuildScenarios :
    (∃ s : State, s.recValid = 0x3 ∧ s.recVbat = 0x40533333 ∧ s.recVbus = 0x40A00000) ∧
    (∃ s : State, s.recValid = 0x4 ∧ s.recBoot = 7) ∧
    (∃ s : State, s.recValid = 0xD ∧ s.recVbat = 0x40533333 ∧ s.recBoot = 7 ∧ s.recTemp = 0x41CC0000) ∧
    ∃ s : State, s.recValid = 0x0 :=
  ⟨⟨{ State.reset with recValid := 0x3, recVbat := 0x40533333, recVbus := 0x40A00000 }, rfl, rfl, rfl⟩,
    ⟨{ State.reset with recValid := 0x4, recBoot := 7 }, rfl, rfl⟩,
    ⟨{ State.reset with recValid := 0xD, recVbat := 0x40533333, recBoot := 7, recTemp := 0x41CC0000 }, rfl, rfl, rfl, rfl⟩,
    ⟨State.reset, rfl⟩⟩

/-- Two states whose records agree on the present fields only, and a state with a BUILD behind it. -/
theorem test_witness_BuildDependsOnlyOnPresentFields :
    let s : State := { busy with recValid := 0x5 }
    let t : State := { State.reset with recValid := 0x5, recVbat := 0x41000000, recBoot := 0xFF }
    (s.recValid = t.recValid ∧ (s.recValid.getLsbD 0 = true → s.recVbat = t.recVbat) ∧
      (s.recValid.getLsbD 1 = true → s.recVbus = t.recVbus) ∧ (s.recValid.getLsbD 2 = true → s.recBoot = t.recBoot) ∧
      (s.recValid.getLsbD 3 = true → s.recTemp = t.recTemp)) ∧ s.recVbus ≠ t.recVbus ∧
      ∃ s', exec .build s = .next s' := by
  refine ⟨by decide, by decide, _, rfl⟩

/-- Every command gives a next state, as the frame and the whole-machine rules about `exec` assume. -/
theorem test_witness_CommandFrames :
    ∀ i ∈ [Instr.nop, .qsfxS0, .qsfxS8, .qsfxS12, .qufxS0, .qufxS8, .qufxS12, .quflt16, .qsflt16, .build],
      ∃ t, exec i busy = .next t := by
  intro i hi
  cases i <;> exact ⟨_, rfl⟩

theorem test_witness_OnlyCommandsWriteStatus :
    (∃ t, perform (.write 0 4 0x00000000) busy = .next t ∧ t.status ≠ busy.status) ∧
      ∃ t, perform .reset busy = .next t ∧ t.status ≠ busy.status :=
  ⟨⟨_, rfl, by decide⟩, ⟨_, rfl, by decide⟩⟩

theorem test_witness_RepeatedAccessesIdempotent :
    (∃ t, exec .build busy = .next t) ∧ Config.base + 0x08 ≠ Config.base ∧
      ∃ t, perform (memWrite (Config.base + 0x08) 4 0x3F800000) busy = .next t := by
  refine ⟨⟨_, rfl⟩, by omega, ?_⟩
  rw [memWrite_base]; exact ⟨_, rfl⟩

theorem test_witness_OnlyQuantizersWriteQout :
    ∃ t, perform (.write 0 4 0x00000201) busy = .next t ∧ t.qout ≠ busy.qout := ⟨_, rfl, by decide⟩

theorem test_witness_OnlyBuildWritesBuffer :
    ∃ t, perform (.write 0 4 0x00000010) busy = .next t ∧ t.buf ≠ busy.buf ∧ t.bufLen ≠ busy.bufLen :=
  ⟨_, rfl, by decide, by decide⟩

/-- Each operand register is changed by a write to it. -/
theorem test_witness_OnlyHostWritesOperands :
    (∃ t, perform (.write 0x08 4 1) busy = .next t ∧ t.qin ≠ busy.qin) ∧
    (∃ t, perform (.write 0x10 4 1) busy = .next t ∧ t.recValid ≠ busy.recValid) ∧
    (∃ t, perform (.write 0x14 4 1) busy = .next t ∧ t.recVbat ≠ busy.recVbat) ∧
    (∃ t, perform (.write 0x18 4 1) busy = .next t ∧ t.recVbus ≠ busy.recVbus) ∧
    (∃ t, perform (.write 0x1C 4 1) busy = .next t ∧ t.recBoot ≠ busy.recBoot) ∧
    ∃ t, perform (.write 0x20 4 1) busy = .next t ∧ t.recTemp ≠ busy.recTemp :=
  ⟨⟨_, rfl, by decide⟩, ⟨_, rfl, by decide⟩, ⟨_, rfl, by decide⟩, ⟨_, rfl, by decide⟩, ⟨_, rfl, by decide⟩,
    ⟨_, rfl, by decide⟩⟩

theorem test_witness_NanAndSatTogetherOnlyInBuild :
    Instr.quflt16 ≠ .build ∧ ∃ t, exec .quflt16 busy = .next t := ⟨by decide, _, rfl⟩

/-- A state that meets the invariant with a built buffer, a step from it, and reset, which meets it with none. -/
theorem test_witness_StepKeepsInvariant :
    State.reset.Inv ∧
    let s : State := { State.reset with bufLen := 2, buf := #v[0x2B, 0, 0, 0, 0, 0, 0, 0, 0], pending := [.write 0 4 0x10] }
    s.Inv ∧ ∃ t, step s = .next t := by
  refine ⟨⟨rfl, by decide, by decide, .inl ⟨rfl, rfl⟩⟩, ⟨rfl, by decide, by decide, .inr ⟨rfl, rfl, rfl, ?_⟩⟩, _, rfl⟩
  intro i hi
  match i, hi with
  | 2, _ | 3, _ | 4, _ | 5, _ | 6, _ | 7, _ | 8, _ => rfl
  | k + 9, _ => rfl
  | 0, h | 1, h => exact absurd h (by decide)

theorem test_witness_AdmittedAccessesRunToTheEnd :
    ({ busy with pending := [.write 0x08 4 0x3F800000, .write 0x00 4 0x00000301, .read 0x7C 4, .reset] } : State).safe =
      true := by decide

end Sys2Proof.Tests
end

/-! The obligations of 10_state.md: which events write STATUS (R30), the format tag (R31) and the reset values (R42). -/

namespace Sys2Proof.Machine

/-! No command reads STATUS: each one overwrites it (10_state.md R30). -/

theorem enter_setStatus (s : State) (v : BitVec 3) (bs : BuildState) :
    enter (s.setStatus v) bs = (enter s bs).setStatus v := rfl

theorem appendByte_setStatus (s : State) (v : BitVec 3) (b : Byte) :
    appendByte (s.setStatus v) b = (appendByte s b).setStatus v := rfl

theorem buildTag_setStatus (s : State) (v : BitVec 3) :
    buildTag (s.setStatus v) = (buildTag s).setStatus v := rfl

theorem buildCodeField_setStatus (s : State) (v : BitVec 3) (i : ℕ) (r : CodecResult) :
    buildCodeField (s.setStatus v) i r = (buildCodeField s i r).setStatus v := by
  unfold buildCodeField
  rw [apply_ite (State.setStatus · v)]
  rfl

theorem buildByteField_setStatus (s : State) (v : BitVec 3) (i : ℕ) (b : Byte) :
    buildByteField (s.setStatus v) i b = (buildByteField s i b).setStatus v := by
  unfold buildByteField
  rw [apply_ite (State.setStatus · v)]
  rfl

/-- PATCH is the one state of the table that writes STATUS (41_buffer_encoder.md R121). -/
theorem buildPatch_setStatus (s : State) (v : BitVec 3) : buildPatch (s.setStatus v) = buildPatch s := rfl

/-- BUILD carries an old STATUS along unread as far as PATCH, which drops it. -/
theorem execBuild_setStatus (s : State) (v : BitVec 3) : execBuild (s.setStatus v) = execBuild s := by
  unfold execBuild
  rw [buildTransitions_eight, buildTransitions_eight]
  simp only [enter_setStatus, buildTag_setStatus, appendByte_setStatus, buildCodeField_setStatus,
    buildByteField_setStatus, buildPatch_setStatus, State.setStatus_recVbat, State.setStatus_recVbus,
    State.setStatus_recBoot, State.setStatus_recTemp]

/-- A command's whole next state, STATUS included, is the same whatever STATUS was before. -/
theorem exec_setStatus (i : Instr) (s : State) (v : BitVec 3) : exec i (s.setStatus v) = exec i s := by
  cases i with
  | build => exact execBuild_setStatus s v
  | _ => rfl

/-- So is that of any word written to CMD, for the illegal command overwrites STATUS too. -/
theorem performCommand_setStatus (w : Word) (s : State) (v : BitVec 3) :
    performCommand w (s.setStatus v) = performCommand w s := by
  unfold performCommand
  split
  · exact exec_setStatus _ s v
  · rfl

/-- Every command completes in every state (60_exceptions.md R150). -/
theorem exec_next (i : Instr) (s : State) : ∃ t, exec i s = .next t := by
  cases i <;> exact ⟨_, rfl⟩

/-- Every word written to CMD completes in every state, the illegal ones too. -/
theorem performCommand_next (w : Word) (s : State) : ∃ t, performCommand w s = .next t := by
  unfold performCommand
  split
  · exact exec_next _ s
  · exact ⟨_, rfl⟩

/-! Accesses other than a write to CMD leave STATUS alone. -/

@[simp] theorem State.returnRead_status (s : State) (v : Word) : (s.returnRead v).status = s.status := rfl

@[simp] theorem Reg.write_status (s : State) (v : Word) (r : Reg) : (r.write s v).status = s.status := by
  cases r <;> rfl

/-- An event that changes STATUS is a reset or a write to CMD. -/
theorem perform_status_ne {e : HostEvent} {s t : State} (h : perform e s = .next t) (hne : t.status ≠ s.status) :
    e = .reset ∨ ∃ w, e = .write 0 4 w := by
  obtain ⟨disp, n, r, -, -, rfl⟩ | ⟨w, rfl, -⟩ | ⟨disp, v, r, -, -, -, rfl⟩ | ⟨rfl, -⟩ := perform_cases h
  · exact absurd (State.returnRead_status _ _) hne
  · exact .inr ⟨w, rfl⟩
  · exact absurd (Reg.write_status _ _ _) hne
  · exact .inl rfl

/-- Settles O46: only a reset or a write to CMD reaches STATUS, and a performed command does not read it. -/
theorem onlyCommandsWriteStatus : Obligations.OnlyCommandsWriteStatus := by
  unfold Obligations.OnlyCommandsWriteStatus
  simp only [memWrite_base, Nat.cast_zero, perform_cmd]
  refine ⟨fun e s t h hne => perform_status_ne h hne, fun w s old => ?_⟩
  obtain ⟨t, ht⟩ := performCommand_next w s
  exact ⟨t, t, ht, (performCommand_setStatus w s old).trans ht, rfl⟩

/-! BUILD's byte 0: TAG writes the tag there, and every later action writes at an index above 0. -/

/-- The tag stands in byte 0 and the write index is past it. -/
def State.TagWritten (s : State) : Prop := s.buf[0] = Config.tag ∧ 0 < s.build.n

theorem buildTag_tagWritten (s : State) : (buildTag s).TagWritten := ⟨rfl, Nat.one_pos⟩

theorem State.TagWritten.enter {s : State} (h : s.TagWritten) (bs : BuildState) :
    (Machine.enter s bs).TagWritten := h

theorem State.TagWritten.appendByte {s : State} (h : s.TagWritten) (b : Byte) :
    (Machine.appendByte s b).TagWritten := by
  obtain ⟨htag, hn⟩ := h
  refine ⟨?_, Nat.succ_pos _⟩
  calc (s.buf.setIfInBounds s.build.n b)[0]
      = s.buf[0] := Vector.getElem_setIfInBounds_ne (by decide) hn.ne'
    _ = Config.tag := htag

theorem State.TagWritten.buildCodeField {s : State} (h : s.TagWritten) (i : ℕ) (r : CodecResult) :
    (Machine.buildCodeField s i r).TagWritten := by
  have hflag : (setFlag s i).TagWritten := h
  unfold Machine.buildCodeField
  split
  · exact (hflag.appendByte _).appendByte _
  · exact h

theorem State.TagWritten.buildByteField {s : State} (h : s.TagWritten) (i : ℕ) (b : Byte) :
    (Machine.buildByteField s i b).TagWritten := by
  have hflag : (setFlag s i).TagWritten := h
  unfold Machine.buildByteField
  split
  · exact hflag.appendByte _
  · exact h

theorem State.TagWritten.buildPatch {s : State} (h : s.TagWritten) : (Machine.buildPatch s).TagWritten := by
  obtain ⟨htag, hn⟩ := h
  refine ⟨?_, hn⟩
  calc (s.buf.setIfInBounds 1 s.build.fl)[0]
      = s.buf[0] := Vector.getElem_setIfInBounds_ne (by decide) one_ne_zero
    _ = Config.tag := htag

/-- After BUILD byte 0 holds the tag, whatever the record. -/
theorem exec_build_tagWritten (s : State) : ∃ t, exec .build s = .next t ∧ t.TagWritten := by
  refine ⟨_, rfl, ?_⟩
  rw [buildTransitions_eight]
  have hPlaceholder := ((buildTag_tagWritten (enter s .tag)).enter .placeholder).appendByte 0
  have hVbat := (hPlaceholder.enter .field0).buildCodeField 0 (volt s.recVbat)
  have hVbus := (hVbat.enter .field1).buildCodeField 1 (volt s.recVbus)
  have hBoot := (hVbus.enter .field2).buildByteField 2 s.recBoot
  have hTemp := (hBoot.enter .field3).buildCodeField 3 (temp s.recTemp)
  exact (hTemp.enter .patch).buildPatch

/-- Settles O14: FMT_TAG has no field to hold or change, and BUILD's later writes miss byte 0. -/
theorem formatTagIsConstant : Obligations.FormatTagIsConstant := by
  unfold Obligations.FormatTagIsConstant
  intro s v
  refine ⟨rfl, rfl, ?_, ?_⟩
  · rw [memWrite_base]
    rfl
  · obtain ⟨t, ht, htag, -⟩ := exec_build_tagWritten s
    exact ⟨t, ht, htag⟩

/-! Reset -/

theorem State.reset_buf_getElem {i : ℕ} (h : i < 9) : State.reset.buf[i] = 0 := Vector.getElem_replicate h

/-- Settles O17: the fields of `State.reset` one by one; FMT_TAG and CMD have no field. -/
theorem resetValues : Obligations.ResetValues := by
  unfold Obligations.ResetValues
  exact ⟨rfl, rfl, rfl, rfl, rfl, rfl, rfl, rfl, fun i => State.reset_buf_getElem i.isLt, rfl, rfl,
    fun _ => ⟨rfl, rfl, fun _ => rfl⟩⟩

end Sys2Proof.Machine

/-! The obligations of 20_memory.md: what a write to a register other than CMD stores (R54, R55). -/

namespace Sys2Proof.Machine

/-- An admitted write that reaches any register but CMD stores there and performs no command (20_memory.md R58). -/
theorem perform_write_of_admitted {disp : ℤ} {n : ℕ} {r : Reg} (ha : admission disp n = .admitted r) (hr : r ≠ .cmd)
    (v : Word) (s : State) : perform (.write disp n v) s = .next (r.write s v) := by
  simp only [perform, busWrite, ha]

/-- At an aligned offset of the window other than CMD's, a 32-bit write stores in the register the map of
20_memory.md R50 has there. -/
theorem perform_memWrite {off : ℕ} (hoff : 0 < off ∧ off ≤ 124 ∧ off % 4 = 0) (v : Word) (s : State) :
    perform (memWrite (Config.base + off) 4 v) s = .next ((Reg.ofOffset off).write s v) := by
  obtain ⟨hpos, hle, hmod⟩ := hoff
  have ha : admission off 4 = .admitted (Reg.ofOffset off) :=
    admission_eq_admitted.mpr ⟨rfl, by omega, by omega, by omega, rfl⟩
  have hcmd : Reg.ofOffset off ≠ .cmd := fun h => by
    have h0 : (off : ℤ) = 0 := ofOffset_eq_cmd (by omega) (by omega) h
    omega
  rw [memWrite_base, perform_write_of_admitted ha hcmd]

/-- Settles O12: the six offsets are those of the RW registers, and `Reg.write` sets the one field of each. -/
theorem writesStoreHeldBits : Obligations.WritesStoreHeldBits := by
  unfold Obligations.WritesStoreHeldBits
  intro s v wr
  have stores (off : ℕ) (hoff : 0 < off ∧ off ≤ 124 ∧ off % 4 = 0) : wr off = .next ((Reg.ofOffset off).write s v) :=
    perform_memWrite hoff v s
  rw [← BitVec.setWidth_eq_extractLsb' (by decide : 4 ≤ 32), ← BitVec.setWidth_eq_extractLsb' (by decide : 8 ≤ 32)]
  exact ⟨stores 0x08 (by decide), stores 0x10 (by decide), stores 0x14 (by decide), stores 0x18 (by decide),
    stores 0x1C (by decide), stores 0x20 (by decide)⟩

/-- The read-only registers (20_memory.md R50). -/
def Reg.IsReadOnly : Reg → Prop
  | .status | .qout | .bufLen | .fmtTag | .buf _ => True
  | .cmd | .qin | .recValid | .recVbat | .recVbus | .recBoot | .recTemp | .reserved => False

/-- A read-only register stores nothing (20_memory.md R55). -/
theorem Reg.IsReadOnly.write_eq {r : Reg} (h : r.IsReadOnly) (s : State) (v : Word) : r.write s v = s := by
  cases r with
  | status | qout | bufLen | fmtTag | buf => rfl
  | cmd | qin | recValid | recVbat | recVbus | recBoot | recTemp | reserved => exact h.elim

/-- The nine words from 0x30 on are BUF0 to BUF8 (20_memory.md R50). -/
theorem ofOffset_buf : ∀ i : Fin 9, Reg.ofOffset (0x30 + 4 * i) = .buf i := by
  decide

/-- Settles O13: the thirteen offsets are those of the read-only registers, which store nothing. -/
theorem readOnlyWritesIgnored : Obligations.ReadOnlyWritesIgnored := by
  unfold Obligations.ReadOnlyWritesIgnored
  intro s v wr
  have ignored (off : ℕ) (hoff : 0 < off ∧ off ≤ 124 ∧ off % 4 = 0) (hro : (Reg.ofOffset off).IsReadOnly) :
      wr off = .next s := (perform_memWrite hoff v s).trans (congrArg _ (hro.write_eq s v))
  have bufReadOnly (i : Fin 9) : (Reg.ofOffset (0x30 + 4 * i)).IsReadOnly := by
    rw [ofOffset_buf]
    trivial
  exact ⟨ignored 0x04 (by decide) trivial, ignored 0x0C (by decide) trivial, ignored 0x24 (by decide) trivial,
    ignored 0x28 (by decide) trivial, fun i => ignored _ (by omega) (bufReadOnly i)⟩

end Sys2Proof.Machine

/-! The obligations of 30_encoding.md: command words (R70 to R76), pseudo-instructions (R78), operands (R80) and the
message layout (R87). -/

namespace Sys2Proof

/-! Decoding and encoding (30_encoding.md R70 to R76) -/

theorem decodeUnscaled_eq_legal {sc : BitVec 2} {i j : Instr} :
    decodeUnscaled sc i = .legal j ↔ sc = 0b00 ∧ i = j := by
  unfold decodeUnscaled
  split_ifs <;> simp_all

theorem decodeScaled_eq_legal {sc : BitVec 2} {s0 s8 s12 j : Instr} :
    decodeScaled sc s0 s8 s12 = .legal j ↔
      (sc = 0b00 ∧ s0 = j) ∨ (sc = 0b01 ∧ s8 = j) ∨ (sc = 0b10 ∧ s12 = j) := by
  unfold decodeScaled
  split_ifs <;> simp_all

/-- The decoder reads each command back from the fields the table gives it (30_encoding.md R74). -/
theorem decodeFields_command (i : Instr) : decodeFields i.command = .legal i := by
  cases i <;> decide

/-- The fields of a legal word are those the table of 30_encoding.md R74 gives its command. -/
theorem eq_command_of_decodeFields {c : Command} {i : Instr} (h : decodeFields c = .legal i) : c = i.command := by
  obtain ⟨rsv, sc, op⟩ := c
  unfold decodeFields at h
  split_ifs at h with hrsv hnop hqsfx hqufx hquflt hqsflt hbuild <;> obtain rfl : rsv = 0 := not_not.mp hrsv
  · obtain ⟨rfl, rfl⟩ := decodeUnscaled_eq_legal.mp h
    exact congrArg (Command.mk 0 0) hnop
  · obtain ⟨rfl, rfl⟩ | ⟨rfl, rfl⟩ | ⟨rfl, rfl⟩ := decodeScaled_eq_legal.mp h <;>
      exact congrArg (Command.mk 0 _) hqsfx
  · obtain ⟨rfl, rfl⟩ | ⟨rfl, rfl⟩ | ⟨rfl, rfl⟩ := decodeScaled_eq_legal.mp h <;>
      exact congrArg (Command.mk 0 _) hqufx
  · obtain ⟨rfl, rfl⟩ := decodeUnscaled_eq_legal.mp h
    exact congrArg (Command.mk 0 0) hquflt
  · obtain ⟨rfl, rfl⟩ := decodeUnscaled_eq_legal.mp h
    exact congrArg (Command.mk 0 0) hqsflt
  · obtain ⟨rfl, rfl⟩ := decodeUnscaled_eq_legal.mp h
    exact congrArg (Command.mk 0 0) hbuild

theorem decode_eq_legal {w : Word} {i : Instr} : decode w = .legal i ↔ w = encode i := by
  constructor
  · intro h
    calc w = (Command.ofWord w).toWord := (Command.toWord_ofWord w).symm
      _ = encode i := congrArg _ (eq_command_of_decodeFields h)
  · rintro rfl
    rw [decode, encode, Command.ofWord_toWord, decodeFields_command]

/-- Settles O1: the decoder reads a command from the fields of the table's word and from no others, and a word is
determined by its fields. -/
theorem decodeEncodeAgree : Obligations.DecodeEncodeAgree := by
  unfold Obligations.DecodeEncodeAgree
  exact ⟨fun _ _ => decode_eq_legal, rfl, rfl, rfl, rfl, rfl, rfl, rfl, rfl, rfl, rfl⟩

/-- Bit `b` of RSV is bit `b + 10` of the word (30_encoding.md R70). -/
theorem Command.ofWord_rsv_getLsbD {w : Word} {b : ℕ} (hlo : 10 ≤ b) (hhi : b ≤ 31) :
    (Command.ofWord w).rsv.getLsbD (b - 10) = w.getLsbD b := by
  rw [Command.ofWord, BitVec.getLsbD_extractLsb', decide_eq_true (by omega), Bool.true_and, Nat.add_sub_cancel' hlo]

theorem decodeFields_of_rsv_ne_zero {c : Command} (h : c.rsv ≠ 0) : decodeFields c = .illegal .reservedBits :=
  if_pos h

/-- Settles O3: the set bit is a bit of RSV, which the decoder tests before OP and SC. -/
theorem reservedBitsMakeIllegal : Obligations.ReservedBitsMakeIllegal := by
  unfold Obligations.ReservedBitsMakeIllegal
  rintro w ⟨b, hlo, hhi, hbit⟩
  have hrsv : (Command.ofWord w).rsv ≠ 0 := fun h0 => by
    have hclear : (Command.ofWord w).rsv.getLsbD (b - 10) = false := h0 ▸ BitVec.getLsbD_zero
    rw [Command.ofWord_rsv_getLsbD hlo hhi, hbit] at hclear
    contradiction
  exact ⟨_, decodeFields_of_rsv_ne_zero hrsv⟩

end Sys2Proof

namespace Sys2Proof.Machine

/-! The pseudo-instructions (30_encoding.md R78) -/

/-- Settles O16: the expansions are by definition; `clrrec` is `setrec 0`, and offset 0x10 is REC_VALID's, which keeps
the mask's four bits. -/
theorem pseudoInstructionsExpand : Obligations.PseudoInstructionsExpand := by
  unfold Obligations.PseudoInstructionsExpand
  have store (s : State) (mask : BitVec 4) : perform (setrec mask) s = .next { s with recValid := mask } :=
    calc perform (setrec mask) s
        = .next (s.setRecValid ((mask.setWidth 32).setWidth 4)) := perform_memWrite (by decide) _ s
      _ = .next (s.setRecValid mask) := by rw [BitVec.setWidth_setWidth_of_le _ (by decide), BitVec.setWidth_eq]
  exact ⟨rfl, rfl, rfl, fun _ => rfl, fun s => store s 0, store⟩

/-! Operands against the exact values of their patterns (30_encoding.md R80) -/

/-- The sign of a value as the factor `(-1)^s` of 30_encoding.md R80. -/
theorem f32Quanta_cast (w : Word) : (f32Quanta w : ℚ) = (-1) ^ (f32Sign w).toNat * f32Magnitude w := by
  unfold f32Quanta
  cases f32Sign w <;> simp

/-- `T × 2^-149` (30_encoding.md R80). -/
theorem f32Magnitude_subnormal {w : Word} (h : f32Exp w = 0) :
    (f32Magnitude w : ℚ) / 2 ^ 149 = f32Frac w * 2 ^ (-149 : ℤ) := by
  rw [f32Magnitude, if_pos h, zpow_neg, div_eq_mul_inv]
  rfl

/-- `(2^23 + T) × 2^(E - 150)` (30_encoding.md R80). -/
theorem f32Magnitude_normal {w : Word} (h : f32Exp w ≠ 0) :
    (f32Magnitude w : ℚ) / 2 ^ 149 = (2 ^ 23 + f32Frac w) * 2 ^ ((f32Exp w : ℤ) - 150) := by
  have hexp : (f32Exp w : ℤ) - 150 = ((f32Exp w - 1 : ℕ) : ℤ) - (149 : ℕ) := by omega
  rw [f32Magnitude, if_neg h, hexp, zpow_sub₀ two_ne_zero, zpow_natCast, zpow_natCast]
  push_cast
  ring

theorem f32_of_finite {w : Word} (h : f32Exp w ≠ 255) : f32 w = .finite (f32Quanta w) := by
  simp [f32, isNaN, isInf, h]

theorem f32Value_of_finite {w : Word} (h : f32Exp w ≠ 255) :
    f32Value w = some (.fin ((f32Quanta w : ℚ) / 2 ^ 149)) := by
  rw [f32Quanta_cast, mul_div_assoc]
  by_cases h0 : f32Exp w = 0
  · rw [f32Magnitude_subnormal h0, ← mul_assoc]
    simp [f32Value, h0]
  · rw [f32Magnitude_normal h0, ← mul_assoc]
    simp [f32Value, h, h0]

/-- The value a machine operand stands for, none for NaN. -/
def Operand.value : Operand → Option ExtRat
  | .nan => none
  | .negInf => some .negInf
  | .posInf => some .posInf
  | .finite q => some (.fin ((q : ℚ) / 2 ^ 149))

/-- The machine's operand is the exact value of its pattern (30_encoding.md R80). -/
theorem f32Value_eq (w : Word) : f32Value w = (f32 w).value := by
  by_cases hexp : f32Exp w = 255
  · by_cases hfrac : f32Frac w = 0
    · cases hs : f32Sign w <;> simp [f32Value, f32, isNaN, isInf, Operand.value, hexp, hfrac, hs]
    · simp [f32Value, f32, isNaN, Operand.value, hexp, hfrac]
  · rw [f32_of_finite hexp, f32Value_of_finite hexp]
    rfl

/-- Settles O20: the model writes out `Operand.value`. -/
theorem operandsAreExactValues : Obligations.OperandsAreExactValues := by
  unfold Obligations.OperandsAreExactValues
  exact f32Value_eq

/-! The fixed-point codec of the fields (40_quantizer.md R91, R93) -/

/-- The machine's integer rounding is the rational one (40_quantizer.md R91). -/
theorem rhu_eq_roundHalfUp (num : ℤ) {den : ℕ} (hd : 0 < den) : rhu num den = roundHalfUp (num / den) := by
  have hq : (0 : ℚ) < den := by exact_mod_cast hd
  refine eq_of_forall_le_iff fun r => ?_
  rw [le_rhu_iff hd, roundHalfUp, Int.le_floor, ← sub_le_iff_le_add, le_div_iff₀ hq, ← Int.cast_le (R := ℚ)]
  push_cast
  constructor <;> intro h <;> linarith

/-- The machine's SFX on quanta is the pseudocode's over the rationals, for every pattern and scale
(40_quantizer.md R93). -/
theorem sfx_eq_sfxSpec (k : ℕ) (w : Word) : sfx k w = sfxSpec k w := by
  unfold sfx sfxSpec
  rw [f32Value_eq]
  cases f32 w with
  | nan | negInf | posInf => rfl
  | finite q =>
    have hround : rhu (q * 2 ^ k) quantaPerUnit = roundHalfUp ((q : ℚ) / 2 ^ 149 * 2 ^ k) := by
      rw [rhu_eq_roundHalfUp _ (by decide : 0 < quantaPerUnit), quantaPerUnit]
      congr 1
      push_cast
      ring
    simp only [hround, Operand.value]
    rfl

/-! BUILD against its pseudocode (41_buffer_encoder.md R122) -/

@[simp] theorem buildPatch_vars (s : State) :
    (buildPatch s).vars = { s.vars with buf := s.vars.buf.setIfInBounds 1 s.vars.fl } := rfl

/-- No action of the table changes which fields are present (41_buffer_encoder.md R127). -/
@[simp] theorem enter_present (s : State) (bs : BuildState) (i : ℕ) : (enter s bs).present i = s.present i :=
  (enter_same s bs).present i
@[simp] theorem buildTag_present (s : State) (i : ℕ) : (buildTag s).present i = s.present i :=
  (buildTag_same s).present i
@[simp] theorem appendByte_present (s : State) (b : Byte) (i : ℕ) : (appendByte s b).present i = s.present i :=
  (appendByte_same s b).present i
@[simp] theorem buildCodeField_present (s : State) (j : ℕ) (r : CodecResult) (i : ℕ) :
    (buildCodeField s j r).present i = s.present i := (buildCodeField_same s j r).present i
@[simp] theorem buildByteField_present (s : State) (j : ℕ) (b : Byte) (i : ℕ) :
    (buildByteField s j b).present i = s.present i := (buildByteField_same s j b).present i

/-- BUILD leaves the pseudocode's variables, and BUF_LEN is its write index (41_buffer_encoder.md R122). -/
theorem exec_build_vars (s : State) :
    ∃ t, exec .build s = .next t ∧ t.vars = buildSpec s ∧ t.bufLen = BitVec.ofNat 4 t.vars.n := by
  refine ⟨_, rfl, ?_, ?_⟩ <;> rw [buildTransitions_eight]
  · simp only [enter_vars, buildPatch_vars, buildCodeField_vars, buildByteField_vars, appendByte_vars, buildTag_vars,
      enter_present, buildCodeField_present, buildByteField_present, appendByte_present, buildTag_present,
      volt, temp, sfx_eq_sfxSpec]
    rfl
  · rfl

/-! The message in the buffer (30_encoding.md R87) -/

/-- The buffer starts with the bytes and is 0x00 after them. -/
def BufHolds (buf : Vector Byte 9) (bytes : List Byte) : Prop :=
  buf.toList = bytes ++ List.replicate (9 - bytes.length) 0

theorem BufHolds.length_le {buf : Vector Byte 9} {bytes : List Byte} (h : BufHolds buf bytes) : bytes.length ≤ 9 := by
  have hlen : 9 = bytes.length + (9 - bytes.length) := by simpa using congrArg List.length h
  omega

theorem BufHolds.take_eq {buf : Vector Byte 9} {bytes : List Byte} (h : BufHolds buf bytes) :
    buf.toList.take bytes.length = bytes := by
  rw [h, List.take_left]

theorem BufHolds.getElem_eq_zero {buf : Vector Byte 9} {bytes : List Byte} (h : BufHolds buf bytes) {i : ℕ}
    (hi : i < 9) (hlen : bytes.length ≤ i) : buf[i] = 0 := by
  have hget : buf.toList[i]? = some 0 := by
    rw [h, List.getElem?_append_right hlen, List.getElem?_replicate_of_lt (by omega)]
  simpa [hi] using hget

/-- A write just past the bytes appends to them. -/
theorem BufHolds.append {buf : Vector Byte 9} {bytes : List Byte} (h : BufHolds buf bytes) (b : Byte)
    (hlen : bytes.length < 9) : BufHolds (buf.setIfInBounds bytes.length b) (bytes ++ [b]) := by
  obtain ⟨k, hk⟩ : ∃ k, 9 - bytes.length = k + 1 := ⟨8 - bytes.length, by omega⟩
  have hk' : 9 - (bytes ++ [b]).length = k := by simp; omega
  rw [BufHolds, Vector.toList_setIfInBounds, h, hk, hk', List.set_append_right _ _ le_rfl, Nat.sub_self,
    List.replicate_succ, List.set_cons_zero, List.append_assoc, List.singleton_append]

/-- PATCH's write to byte 1 replaces the placeholder (41_buffer_encoder.md R121). -/
theorem BufHolds.set_one {buf : Vector Byte 9} {x y : Byte} {bytes : List Byte} (h : BufHolds buf (x :: y :: bytes))
    (b : Byte) : BufHolds (buf.setIfInBounds 1 b) (x :: b :: bytes) := by
  rw [BufHolds, Vector.toList_setIfInBounds, h]
  rfl

/-- The flags the pseudocode accumulates are REC_VALID, for each of its 16 values (41_buffer_encoder.md R124). -/
theorem buildSpec_fl (s : State) : (buildSpec s).fl = s.recValid.setWidth 8 := by
  simp only [buildSpec, apply_ite BuildVars.fl, BuildVars.codeField, BuildVars.bootField]
  generalize s.recValid = valid
  revert valid
  decide

/-- The pseudocode has written these bytes and its write index stands behind them, with room for more. -/
def BuildVars.Wrote (v : BuildVars) (bytes : List Byte) (room : ℕ) : Prop :=
  BufHolds v.buf bytes ∧ v.n = bytes.length ∧ bytes.length + room ≤ 9

/-- An absent field writes nothing (30_encoding.md R87: no padding). -/
theorem BuildVars.Wrote.skip {v : BuildVars} {bytes : List Byte} {room k : ℕ} (h : v.Wrote bytes (room + k)) :
    v.Wrote (bytes ++ []) room := by
  obtain ⟨hbuf, hn, hroom⟩ := h
  rw [List.append_nil]
  exact ⟨hbuf, hn, by omega⟩

/-- A two-byte field takes its two bytes if it is present, and leaves the rest of the room. -/
theorem BuildVars.Wrote.codeField {v : BuildVars} {bytes : List Byte} {room : ℕ} (h : v.Wrote bytes (room + 2))
    (p : Bool) (bit : Byte) (r : CodecResult) :
    (if p then v.codeField bit r else v).Wrote (bytes ++ if p then bigEndian r.code else []) room := by
  cases p with
  | false => exact h.skip
  | true =>
    obtain ⟨hbuf, hn, hroom⟩ := h
    have hhi := hbuf.append (r.code.extractLsb' 8 8) (by omega)
    have hlo := hhi.append (r.code.extractLsb' 0 8) (by simp; omega)
    refine ⟨?_, by simp [BuildVars.codeField, bigEndian, hn], by simp [bigEndian]; omega⟩
    simpa [BuildVars.codeField, bigEndian, hn] using hlo

/-- The Boot field takes one byte if it is present. -/
theorem BuildVars.Wrote.bootField {v : BuildVars} {bytes : List Byte} {room : ℕ} (h : v.Wrote bytes (room + 1))
    (p : Bool) (b : Byte) :
    (if p then v.bootField b else v).Wrote (bytes ++ if p then [b] else []) room := by
  cases p with
  | false => exact h.skip
  | true =>
    obtain ⟨hbuf, hn, hroom⟩ := h
    refine ⟨?_, by simp [BuildVars.bootField, hn], by simp; omega⟩
    simpa [BuildVars.bootField, hn] using hbuf.append b (by omega)

/-- The variables before the first field: the tag and the flags placeholder are written, and the fields need 2, 2, 1
and 2 bytes at most. -/
def BuildVars.start : BuildVars :=
  { buf := ((Vector.replicate 9 0).setIfInBounds 0 0x2B).setIfInBounds 1 0x00
    n := 2, fl := 0, sat := false, nan := false }

theorem BuildVars.start_wrote : BuildVars.start.Wrote [0x2B, 0x00] 7 := ⟨rfl, rfl, le_rfl⟩

/-- The pseudocode's buffer holds the message, and its write index is the message's length. -/
theorem buildSpec_wrote (s : State) : (buildSpec s).Wrote (message s) 0 := by
  have hVbat := BuildVars.start_wrote.codeField (s.present 0) 0x01 (sfxSpec 12 s.recVbat)
  have hVbus := hVbat.codeField (s.present 1) 0x02 (sfxSpec 12 s.recVbus)
  have hBoot := hVbus.bootField (s.present 2) s.recBoot
  have hTemp := hBoot.codeField (s.present 3) 0x08 (sfxSpec 8 s.recTemp)
  simp only [List.append_assoc] at hTemp
  obtain ⟨hbuf, hn, hroom⟩ := hTemp
  rw [message, ← buildSpec_fl, fieldBytes]
  simp only [List.append_assoc]
  exact ⟨hbuf.set_one _, hn, hroom⟩

/-! The decoder of the message (30_encoding.md R87) -/

/-- The walk takes back exactly what `fieldBytes` put for the field. -/
theorem takeCode_optional (p : Bool) (h : Code) (rest : List Byte) :
    takeCode p ((if p then bigEndian h else []) ++ rest) = some (if p then some h else none, rest) := by
  cases p with
  | false => rfl
  | true => exact congrArg (fun code => some (some code, rest)) BitVec.extractLsb'_append_extractLsb'

theorem takeByte_optional (p : Bool) (b : Byte) (rest : List Byte) :
    takeByte p ((if p then [b] else []) ++ rest) = some (if p then some b else none, rest) := by
  cases p <;> rfl

/-- A decoder that walks the flags gets each present field back and no absent one. -/
theorem parseMessage_message (s : State) :
    parseMessage (message s) = some
      { vbat := if s.present 0 then some (sfxSpec 12 s.recVbat).code else none
        vbus := if s.present 1 then some (sfxSpec 12 s.recVbus).code else none
        boot := if s.present 2 then some s.recBoot else none
        temp := if s.present 3 then some (sfxSpec 8 s.recTemp).code else none } := by
  have flag {i : ℕ} (hi : i < 4) : (s.recValid.setWidth 8).getLsbD i = s.present i := by
    rw [BitVec.getLsbD_setWidth, decide_eq_true (by omega), Bool.true_and, State.present]
  have upper : (s.recValid.setWidth 8).extractLsb' 4 4 = 0 := by
    generalize s.recValid = valid
    revert valid
    decide
  rw [message, parseMessage, if_pos ⟨rfl, upper⟩, ← List.append_nil (fieldBytes s), fieldBytes]
  simp only [List.append_assoc, flag, Nat.reduceLT, takeCode_optional, takeByte_optional, Option.bind_some, if_true]

/-- Settles O39: BUILD leaves the pseudocode's buffer, which holds the message and nothing after it, and the walk reads
the message back. -/
theorem builtMessageLayoutAndDecoding : Obligations.BuiltMessageLayoutAndDecoding := by
  unfold Obligations.BuiltMessageLayoutAndDecoding
  intro s
  obtain ⟨t, ht, hvars, hlen⟩ := exec_build_vars s
  obtain ⟨(hbuf : BufHolds t.buf (message s)), hn, -⟩ : t.vars.Wrote (message s) 0 := hvars ▸ buildSpec_wrote s
  have hlen : t.bufLen.toNat = (message s).length := by
    rw [hlen, hn, BitVec.toNat_ofNat, Nat.mod_eq_of_lt (hbuf.length_le.trans_lt (by decide))]
  have hcollected : t.collected = message s := by rw [State.collected, hlen, hbuf.take_eq]
  exact ⟨t, ht, hcollected, hlen, fun i hi => hbuf.getElem_eq_zero i.isLt (hlen ▸ hi),
    hcollected ▸ parseMessage_message s⟩

end Sys2Proof.Machine

/-! The obligations of 40_quantizer.md: the register transport (R90), DECOMP (R92), the four codecs against their
pseudocode over the rationals (R93, R94, R96, R97) and the NaN rule (R99). -/

namespace Sys2Proof

/-! Words with SC set on an operation that takes no scale (30_encoding.md R72) -/

/-- Every command of the table whose operation takes no scale has SC = 0b00 (30_encoding.md R74). -/
theorem Instr.command_sc_of_takesScale_eq_false {i : Instr} (h : i.command.takesScale = false) :
    i.command.sc = 0b00 := by
  revert h
  cases i <;> decide

/-- A word with the OP of such a command and SC ≠ 0b00 is none of the table's. -/
theorem decode_illegal_of_scale_not_taken {w : Word} {i : Instr} (hi : i.command.takesScale = false)
    (hop : w.extractLsb' 0 8 = i.command.op) (hsc : w.extractLsb' 8 2 ≠ 0b00) : ∃ why, decode w = .illegal why := by
  cases hw : decode w with
  | illegal why => exact ⟨why, rfl⟩
  | legal j =>
    have hfields : Command.ofWord w = j.command := eq_command_of_decodeFields hw
    have hscale : j.command.takesScale = false := by
      rw [← hi, ← hfields]
      simp only [Command.takesScale, Command.ofWord, hop]
    exact absurd ((congrArg Command.sc hfields).trans (Instr.command_sc_of_takesScale_eq_false hscale)) hsc

end Sys2Proof

namespace Sys2Proof.Machine

/-! The register transport (40_quantizer.md R90) and the NaN rule (R99) -/

/-- The eight quantizer commands (40_quantizer.md R93, R94, R96, R97). -/
def quantizerCommands : List Instr := [.qsfxS0, .qsfxS8, .qsfxS12, .qufxS0, .qufxS8, .qufxS12, .quflt16, .qsflt16]

/-- Each quantizer command transports the result of one codec, and each codec answers a NaN in the one way. -/
theorem exec_quantizer {i : Instr} (hi : i ∈ quantizerCommands) :
    ∃ codec : Word → CodecResult, (∀ s, exec i s = .next (s.quantized (codec s.qin))) ∧
      ∀ w, isNaN w = true → codec w = nanCodec := by
  cases i with
  | nop | build => exact absurd hi (by decide)
  | qsfxS0 => exact ⟨sfx 0, fun _ => rfl, fun _ => sfx_of_isNaN⟩
  | qsfxS8 => exact ⟨sfx 8, fun _ => rfl, fun _ => sfx_of_isNaN⟩
  | qsfxS12 => exact ⟨sfx 12, fun _ => rfl, fun _ => sfx_of_isNaN⟩
  | qufxS0 => exact ⟨ufx 0, fun _ => rfl, fun _ => ufx_of_isNaN⟩
  | qufxS8 => exact ⟨ufx 8, fun _ => rfl, fun _ => ufx_of_isNaN⟩
  | qufxS12 => exact ⟨ufx 12, fun _ => rfl, fun _ => ufx_of_isNaN⟩
  | quflt16 => exact ⟨uflt, fun _ => rfl, fun _ => uflt_of_isNaN⟩
  | qsflt16 => exact ⟨sflt, fun _ => rfl, fun _ => sflt_of_isNaN⟩

/-- Settles O23: the model writes out `State.quantized` of the command's codec. -/
theorem quantizerTransport : Obligations.QuantizerTransport := by
  unfold Obligations.QuantizerTransport
  intro i hi
  obtain ⟨codec, hexec, -⟩ := exec_quantizer hi
  exact ⟨codec, hexec⟩

/-- A computed code sets no STATUS bit (10_state.md R27 to R29). -/
theorem State.quantized_computed (s : State) (h : Code) :
    s.quantized (computed h) = { s with qout := h, status := 0 } := by
  rw [State.quantized, computed_code, computed_nan, computed_sat]
  rfl

/-- An operand on which the codec saturates nothing leaves its code in QOUT and STATUS clear. -/
theorem exec_of_computed {i : Instr} {codec : Word → CodecResult}
    (hexec : ∀ s, exec i s = .next (s.quantized (codec s.qin))) {w : Word} {h : Code} (hcode : codec w = computed h)
    (s : State) (hs : s.qin = w) : exec i s = .next { s with qout := h, status := 0 } := by
  have hqin : codec s.qin = computed h := hs ▸ hcode
  rw [hexec, hqin, State.quantized_computed]

/-- `isNaN` on the fields of the pattern (30_encoding.md R81). -/
theorem isNaN_of_fields {w : Word} (hexp : w.extractLsb' 23 8 = 255) (hfrac : w.extractLsb' 0 23 ≠ 0) :
    isNaN w = true := by
  have hfrac0 : f32Frac w ≠ 0 := fun h => hfrac (BitVec.eq_of_toNat_eq h)
  simp [isNaN, f32Exp, hexp, hfrac0]

/-- Settles O28: the transport of the one NaN result. -/
theorem nanGivesZeroCode : Obligations.NanGivesZeroCode := by
  unfold Obligations.NanGivesZeroCode
  intro s i hi hexp hfrac
  obtain ⟨codec, hexec, hnan⟩ := exec_quantizer hi
  rw [hexec, hnan _ (isNaN_of_fields hexp hfrac)]
  rfl

/-! DECOMP (40_quantizer.md R92) -/

theorem decompExp_of_pos {a : ℚ} (ha : 0 < a) : decompExp a = Int.log 2 a + 1 := if_neg ha.ne'

theorem decompExp_le_iff {a : ℚ} (ha : 0 < a) {e : ℤ} : decompExp a ≤ e ↔ a < 2 ^ e := by
  rw [decompExp_of_pos ha, Int.add_one_le_iff, ← Int.lt_zpow_iff_log_lt one_lt_two ha, Nat.cast_ofNat]

theorem le_decompExp_iff {a : ℚ} (ha : 0 < a) {e : ℤ} : e ≤ decompExp a ↔ 2 ^ (e - 1) ≤ a := by
  rw [decompExp_of_pos ha, ← sub_le_iff_le_add, ← Int.zpow_le_iff_le_log one_lt_two ha, Nat.cast_ofNat]

@[simp] theorem decompExp_zero : decompExp 0 = 0 := rfl

@[simp] theorem decompMantissa_zero : decompMantissa 0 = 0 := zero_mul _

theorem decompMantissa_eq_div (a : ℚ) : decompMantissa a = a / 2 ^ decompExp a := by
  rw [decompMantissa, zpow_neg, div_eq_mul_inv]

/-- The reference pair is a decomposition: the mantissa's bounds are those of `a` against the powers of 2 around it. -/
theorem isDecomp_reference {a : ℚ} (ha : 0 ≤ a) : IsDecomp a (decompMantissa a) (decompExp a) := by
  obtain rfl | hpos := ha.eq_or_lt
  · exact .inl ⟨rfl, decompMantissa_zero, decompExp_zero⟩
  · have hpow : (0 : ℚ) < 2 ^ decompExp a := zpow_pos two_pos _
    have hlo : 2 ^ (decompExp a - 1) ≤ a := (le_decompExp_iff hpos).mp le_rfl
    have hhi : a < 2 ^ decompExp a := (decompExp_le_iff hpos).mp le_rfl
    rw [zpow_sub_one₀ two_ne_zero] at hlo
    rw [decompMantissa_eq_div]
    refine .inr ⟨hpos, ?_, (div_lt_one hpow).mpr hhi, (div_mul_cancel₀ a hpow.ne').symm⟩
    rw [le_div_iff₀ hpow]
    linarith

/-- No other pair is one: the mantissa's bounds put `a` between 2^(e-1) and 2^e. -/
theorem IsDecomp.eq_reference {a m : ℚ} {e : ℤ} (h : IsDecomp a m e) : m = decompMantissa a ∧ e = decompExp a := by
  obtain ⟨rfl, rfl, rfl⟩ | ⟨hpos, hlo, hhi, rfl⟩ := h
  · exact ⟨decompMantissa_zero.symm, decompExp_zero.symm⟩
  · have hpow : (0 : ℚ) < 2 ^ e := zpow_pos two_pos _
    have hbelow : 2 ^ (e - 1) ≤ m * 2 ^ e := by
      rw [zpow_sub_one₀ two_ne_zero, mul_comm (2 ^ e), ← one_div]
      exact mul_le_mul_of_nonneg_right hlo hpow.le
    have habove : m * 2 ^ e < 2 ^ e := mul_lt_of_lt_one_left hpow hhi
    have hexp : e = decompExp (m * 2 ^ e) :=
      le_antisymm ((le_decompExp_iff hpos).mpr hbelow) ((decompExp_le_iff hpos).mpr habove)
    exact ⟨by rw [decompMantissa_eq_div, ← hexp, mul_div_cancel_right₀ m hpow.ne'], hexp⟩

/-- "Because a < 1, e ≤ 0" (40_quantizer.md R92). -/
theorem decompExp_nonpos {a : ℚ} (h0 : 0 ≤ a) (h1 : a < 1) : decompExp a ≤ 0 := by
  obtain rfl | hpos := h0.eq_or_lt
  · exact decompExp_zero.le
  · rwa [decompExp_le_iff hpos, zpow_zero]

/-! The machine's decomposition of a value in quanta -/

theorem decomp_den_pos (q : ℕ) : 0 < (decomp q).den := by
  unfold decomp
  split_ifs
  · exact Nat.one_pos
  · exact Nat.two_pow_pos _

theorem decomp_exp (q : ℕ) : (decomp q).exp = decompExp ((q : ℚ) / 2 ^ 149) := by
  by_cases hq : q = 0
  · simp [decomp, hq]
  · rw [decompExp_quanta hq, decomp, if_neg hq]

theorem decomp_mantissa (q : ℕ) :
    ((decomp q).num : ℚ) / (decomp q).den = decompMantissa ((q : ℚ) / 2 ^ 149) := by
  by_cases hq : q = 0
  · simp [decomp, hq]
  · rw [decompMantissa_quanta hq, decomp, if_neg hq]
    push_cast
    rfl

/-- The least non-zero value is 2^-149 = 1/2 × 2^-148 (40_quantizer.md R92). -/
theorem le_decomp_exp (q : ℕ) : -148 ≤ (decomp q).exp := by
  unfold decomp
  split_ifs
  · decide
  · dsimp only
    omega

/-- Settles O22: the reference pair's exponent is the binary logarithm that brackets `a`, and the machine's pair is the
reference one. -/
theorem decompositionIsUnique : Obligations.DecompositionIsUnique := by
  unfold Obligations.DecompositionIsUnique
  refine ⟨fun a h0 h1 => ⟨isDecomp_reference h0, decompExp_nonpos h0 h1, fun m e h => h.eq_reference⟩,
    fun q hq => ?_⟩
  have h0 : (0 : ℚ) ≤ q / 2 ^ 149 := by positivity
  have h1 : (q : ℚ) / 2 ^ 149 < 1 := by
    rw [div_lt_one (by positivity)]
    exact_mod_cast hq
  refine ⟨?_, le_decomp_exp q, ?_⟩
  · rw [decomp_mantissa, decomp_exp]
    exact isDecomp_reference h0
  · rw [decomp_exp]
    exact decompExp_nonpos h0 h1

/-! The fixed-point codecs (40_quantizer.md R93, R94) -/

/-- The scaled value of an operand in quanta, rounded by the machine and over the rationals (40_quantizer.md R91). -/
theorem rhu_scaled_quanta (q : ℤ) (k : ℕ) :
    rhu (q * 2 ^ k) quantaPerUnit = roundHalfUp ((q : ℚ) / 2 ^ 149 * 2 ^ k) := by
  rw [rhu_eq_roundHalfUp _ (by decide : 0 < quantaPerUnit), quantaPerUnit]
  congr 1
  push_cast
  ring

/-- The machine's UFX on quanta is the pseudocode's over the rationals, for every pattern and scale
(40_quantizer.md R94). -/
theorem ufx_eq_ufxSpec (k : ℕ) (w : Word) : ufx k w = ufxSpec k w := by
  unfold ufx ufxSpec
  rw [f32Value_eq]
  cases f32 w with
  | nan | negInf | posInf => rfl
  | finite q =>
    simp only [rhu_scaled_quanta, Operand.value]
    rfl

/-- Settles O24: the machine's SFX is the pseudocode's. -/
theorem qsfxQuantizesExactly : Obligations.QsfxQuantizesExactly := by
  unfold Obligations.QsfxQuantizesExactly
  simp only [← sfx_eq_sfxSpec]
  exact ⟨fun _ => ⟨rfl, rfl, rfl⟩, decode_eq_legal.mpr rfl, decode_eq_legal.mpr rfl, decode_eq_legal.mpr rfl,
    exec_of_computed (codec := sfx 12) (fun _ => rfl) (by decide)⟩

/-- Settles O25: the machine's UFX is the pseudocode's. -/
theorem qufxQuantizesExactly : Obligations.QufxQuantizesExactly := by
  unfold Obligations.QufxQuantizesExactly
  simp only [← ufx_eq_ufxSpec]
  exact ⟨fun _ => ⟨rfl, rfl, rfl⟩, decode_eq_legal.mpr rfl, decode_eq_legal.mpr rfl, decode_eq_legal.mpr rfl,
    exec_of_computed (codec := ufx 8) (fun _ => rfl) (by decide)⟩

/-! The compact-float core (40_quantizer.md R95) -/

theorem rhu_nonneg {num : ℤ} {den : ℕ} (hn : 0 ≤ num) (hd : 0 < den) : 0 ≤ rhu num den := by
  rw [le_rhu_iff hd]
  omega

theorem rebias_eq (e : ℤ) : rebias e = if e + 15 < 0 then 0 else e + 15 := rfl

theorem rebias_nonneg (e : ℤ) : 0 ≤ rebias e := by
  rw [rebias_eq]
  split_ifs <;> omega

/-- The machine's core on quanta is the pseudocode's over the rationals; its fields are natural numbers because the
rebiased exponent and the rounded mantissa are not negative. -/
theorem cfSpec_quanta (fb q : ℕ) :
    cfSpec fb ((q : ℚ) / 2 ^ 149) = (cf fb q).map (fun c => ((c.1 : ℤ), (c.2 : ℤ))) := by
  have hround : roundHalfUp (decompMantissa ((q : ℚ) / 2 ^ 149) * 2 ^ fb) =
      rhu ((decomp q).num * 2 ^ fb) (decomp q).den := by
    rw [rhu_eq_roundHalfUp _ (decomp_den_pos q), ← decomp_mantissa]
    congr 1
    push_cast
    ring
  have hF : 0 ≤ rhu ((decomp q).num * 2 ^ fb) (decomp q).den := rhu_nonneg (by positivity) (decomp_den_pos q)
  have hex : 0 ≤ rebias (decomp q).exp := rebias_nonneg _
  unfold cfSpec cf
  simp only [hround, ← decomp_exp, ← rebias_eq]
  generalize rhu _ _ = F at hF ⊢
  generalize rebias _ = ex at hex ⊢
  by_cases hcarry : F ≥ 2 ^ fb
  · simp only [hcarry, if_true]
    split_ifs
    · rfl
    · simp [hex, add_nonneg]
  · simp only [hcarry, if_false]
    split_ifs
    · rfl
    · simp [hex, hF]

/-! The compact-float codecs (40_quantizer.md R96, R97): their range tests on quanta are those on the value. -/

theorem quanta_lt_zero_iff {q : ℤ} : (q : ℚ) / 2 ^ 149 < 0 ↔ q < 0 := by
  rw [div_lt_iff₀ (by positivity), zero_mul, Int.cast_lt_zero]

theorem one_le_quanta_iff {q : ℤ} : 1 ≤ (q : ℚ) / 2 ^ 149 ↔ (quantaPerUnit : ℤ) ≤ q := by
  rw [le_div_iff₀ (by positivity), one_mul, quantaPerUnit, ← Int.cast_le (R := ℚ)]
  push_cast
  rfl

theorem quanta_le_neg_one_iff {q : ℤ} : (q : ℚ) / 2 ^ 149 ≤ -1 ↔ q ≤ -(quantaPerUnit : ℤ) := by
  rw [div_le_iff₀ (by positivity), neg_one_mul, quantaPerUnit, ← Int.cast_le (R := ℚ)]
  push_cast
  rfl

theorem abs_quanta (q : ℤ) : |(q : ℚ) / 2 ^ 149| = (q.natAbs : ℚ) / 2 ^ 149 := by
  rw [abs_div, abs_of_pos (by positivity : (0 : ℚ) < 2 ^ 149), Nat.cast_natAbs, Int.cast_abs]

/-- The machine's UFLT on quanta is the pseudocode's over the rationals, for every pattern (40_quantizer.md R96). -/
theorem uflt_eq_ufltSpec (w : Word) : uflt w = ufltSpec w := by
  unfold uflt ufltSpec
  rw [f32Value_eq]
  cases f32 w with
  | nan | negInf | posInf => rfl
  | finite q =>
    simp only [Operand.value, quanta_lt_zero_iff, ge_iff_le, one_le_quanta_iff]
    by_cases hneg : q < 0
    · simp only [hneg, if_true]
      rfl
    · lift q to ℕ using not_lt.mp hneg
      simp only [Int.cast_natCast, cfSpec_quanta, Int.toNat_natCast]
      cases cf 12 q with
      | none => rfl
      | some c =>
        simp only [Option.map_some, BitVec.ofInt_natCast]
        rfl

/-- The machine's SFLT on quanta is the pseudocode's over the rationals, for every pattern (40_quantizer.md R97). -/
theorem sflt_eq_sfltSpec (w : Word) : sflt w = sfltSpec w := by
  unfold sflt sfltSpec
  rw [f32Value_eq]
  cases f32 w with
  | nan | negInf | posInf => rfl
  | finite q =>
    simp only [Operand.value, quanta_le_neg_one_iff, quanta_lt_zero_iff, ge_iff_le, one_le_quanta_iff, abs_quanta,
      cfSpec_quanta]
    cases cf 11 q.natAbs with
    | none => rfl
    | some c =>
      simp only [Option.map_some, BitVec.ofInt_natCast]
      rfl

/-- Settles O26: the machine's UFLT is the pseudocode's, and OP = 0x03 takes no scale. -/
theorem quflt16QuantizesExactly : Obligations.Quflt16QuantizesExactly := by
  unfold Obligations.Quflt16QuantizesExactly
  simp only [← uflt_eq_ufltSpec]
  exact ⟨fun _ => rfl, decode_eq_legal.mpr rfl, fun _ => decode_illegal_of_scale_not_taken (i := .quflt16) rfl,
    exec_of_computed (codec := uflt) (fun _ => rfl) (by decide)⟩

/-- Settles O27: the machine's SFLT is the pseudocode's, and OP = 0x04 takes no scale. -/
theorem qsflt16QuantizesExactly : Obligations.Qsflt16QuantizesExactly := by
  unfold Obligations.Qsflt16QuantizesExactly
  simp only [← sflt_eq_sfltSpec]
  exact ⟨fun _ => rfl, decode_eq_legal.mpr rfl, fun _ => decode_illegal_of_scale_not_taken (i := .qsflt16) rfl,
    exec_of_computed (codec := sflt) (fun _ => rfl) (by decide)⟩

end Sys2Proof.Machine

/-! The obligations of 41_buffer_encoder.md: BUILD against its pseudocode (R122, R127), its STATUS (R126), the empty
record (R128), the source's scenarios (R132), and what BUILD depends on (R129, R130). -/

namespace Sys2Proof.Machine

/-! Everything a BUILD does -/

/-- `t` is what BUILD leaves of `s`: the pseudocode's variables in BUF, BUF_LEN and STATUS (41_buffer_encoder.md R122),
the machine IDLE (R121), and the record, QIN and QOUT untouched (R127). -/
structure BuildResult (s t : State) : Prop where
  vars : t.vars = buildSpec s
  bufLen : t.bufLen = BitVec.ofNat 4 (buildSpec s).n
  status : t.status = statusBits false (buildSpec s).nan (buildSpec s).sat
  idle : t.build.bs = .idle
  operands : SameOperands s t

theorem BuildResult.buf {s t : State} (h : BuildResult s t) : t.buf = (buildSpec s).buf := congrArg BuildVars.buf h.vars

/-- How BUILD ends: PATCH takes STATUS from the sticky bits, and DONE goes to IDLE (41_buffer_encoder.md R121). -/
theorem exec_build_patched {s t : State} (h : exec .build s = .next t) :
    t.status = statusBits false t.vars.nan t.vars.sat ∧ t.build.bs = .idle := by
  obtain rfl : buildTransitions 8 (enter s .tag) = t := Host.Outcome.next.inj h
  rw [buildTransitions_eight]
  exact ⟨rfl, rfl⟩

theorem exec_build_same {s t : State} (h : exec .build s = .next t) : SameOperands s t := by
  obtain rfl : buildTransitions 8 (enter s .tag) = t := Host.Outcome.next.inj h
  exact (enter_same s .tag).trans (buildTransitions_same 8 _)

/-- Every BUILD that completes has this result. -/
theorem buildResult_of_exec {s t : State} (h : exec .build s = .next t) : BuildResult s t := by
  obtain ⟨t', h', hvars, hlen⟩ := exec_build_vars s
  obtain rfl : t' = t := Host.Outcome.next.inj (h'.symm.trans h)
  obtain ⟨hstatus, hidle⟩ := exec_build_patched h
  exact ⟨hvars, hvars ▸ hlen, hvars ▸ hstatus, hidle, exec_build_same h⟩

/-- Settles O37: BUILD's result is the pseudocode's, whose write index is the length of the message in its buffer. -/
theorem buildFollowsPseudocode : Obligations.BuildFollowsPseudocode := by
  unfold Obligations.BuildFollowsPseudocode
  intro s
  obtain ⟨t, ht⟩ := exec_next .build s
  have hres := buildResult_of_exec ht
  have hop := hres.operands
  obtain ⟨-, hn, hroom⟩ := buildSpec_wrote s
  have hheader : 2 ≤ (message s).length := Nat.le_add_left 2 _
  exact ⟨t, ht, hres.buf, hres.bufLen, hn ▸ hheader, hn ▸ hroom, hres.status, hres.idle, hop.recValid, hop.recVbat,
    hop.recVbus, hop.recBoot, hop.recTemp, hop.qin, hop.qout⟩

/-! STATUS: the sticky bits of the pseudocode, field by field (41_buffer_encoder.md R126) -/

/-- A present field ORs its flag into a sticky bit, and an absent one leaves the bit alone. -/
theorem ite_or_eq_or_and (p x r : Bool) : (if p then x || r else x) = (x || p && r) := by
  cases p
  · exact (Bool.or_false x).symm
  · rfl

theorem buildSpec_sat (s : State) :
    (buildSpec s).sat = ((s.recValid.getLsbD 0 && (sfxSpec 12 s.recVbat).sat) ||
      (s.recValid.getLsbD 1 && (sfxSpec 12 s.recVbus).sat) || (s.recValid.getLsbD 3 && (sfxSpec 8 s.recTemp).sat)) := by
  simp only [buildSpec, apply_ite BuildVars.sat, BuildVars.codeField, BuildVars.bootField, ite_self, ite_or_eq_or_and,
    Bool.false_or, Bool.if_false_right, Bool.decide_eq_true]

/-- The pseudocode reports NAN exactly for a NaN operand (10_state.md R28). -/
theorem sfxSpec_nan (k : ℕ) (w : Word) : (sfxSpec k w).nan = isNaN w := by
  rw [← sfx_eq_sfxSpec, sfx_nan]

theorem buildSpec_nan (s : State) :
    (buildSpec s).nan = ((s.recValid.getLsbD 0 && isNaN s.recVbat) || (s.recValid.getLsbD 1 && isNaN s.recVbus) ||
      (s.recValid.getLsbD 3 && isNaN s.recTemp)) := by
  simp only [buildSpec, apply_ite BuildVars.nan, BuildVars.codeField, BuildVars.bootField, ite_self, ite_or_eq_or_and,
    Bool.false_or, Bool.if_false_right, Bool.decide_eq_true, sfxSpec_nan]

/-- A saturating SFX answers one of its two clamp codes (40_quantizer.md R93). -/
theorem sfx_code_of_sat {k : ℕ} {w : Word} (h : (sfx k w).sat = true) :
    (sfx k w).code = 0x7FFF ∨ (sfx k w).code = 0x8000 := by
  unfold sfx at h ⊢
  cases hw : f32 w with
  | nan => simp [hw] at h
  | posInf => exact .inl rfl
  | negInf => exact .inr rfl
  | finite q =>
    rw [hw] at h
    dsimp only at h ⊢
    obtain ⟨-, heq⟩ | ⟨-, heq⟩ | ⟨-, -, heq⟩ := saturateSigned_cases (rhu (q * 2 ^ k) quantaPerUnit)
    · exact .inl (congrArg CodecResult.code heq)
    · exact .inr (congrArg CodecResult.code heq)
    · rw [heq, computed_sat] at h
      contradiction

/-- Settles O41: STATUS holds the pseudocode's sticky bits, and the collected bytes are the message. -/
theorem buildStatus : Obligations.BuildStatus := by
  unfold Obligations.BuildStatus
  intro s
  obtain ⟨t, ht, hcollected, -⟩ := builtMessageLayoutAndDecoding s
  have hstatus := (buildResult_of_exec ht).status
  refine ⟨t, ht, State.ill_eq hstatus, (State.sat_eq hstatus).trans (buildSpec_sat s),
    (State.nan_eq hstatus).trans (buildSpec_nan s), hcollected, fun k w => ?_⟩
  rw [← sfx_eq_sfxSpec]
  exact ⟨sfx_code_of_sat, sfx_of_isNaN⟩

/-! The empty record (41_buffer_encoder.md R128) -/

/-- With no field present PATCH writes the 0x00 that the placeholder holds already. -/
theorem buildSpec_of_recValid_eq_zero {s : State} (h : s.recValid = 0) : buildSpec s = BuildVars.start := by
  unfold buildSpec
  rw [h]
  rfl

/-- Settles O42: no field adds to the tag and the placeholder. -/
theorem buildEmptyRecord : Obligations.BuildEmptyRecord := by
  unfold Obligations.BuildEmptyRecord
  intro s hvalid
  obtain ⟨t, ht⟩ := exec_next .build s
  have hres := buildResult_of_exec ht
  have hspec := buildSpec_of_recValid_eq_zero hvalid
  refine ⟨t, ht, ?_, ?_, ?_⟩
  · rw [hres.buf, hspec]
    rfl
  · rw [hres.bufLen, hspec]
    rfl
  · rw [hres.status, hspec]
    rfl

/-! The source's scenarios (41_buffer_encoder.md R132) -/

/-- The host collects the record's message, and BUF_LEN is its length. -/
theorem exec_build_of_message {s : State} {bytes : List Byte} (h : message s = bytes) :
    ∃ t, exec .build s = .next t ∧ t.collected = bytes ∧ t.bufLen = BitVec.ofNat 4 bytes.length := by
  subst h
  obtain ⟨t, ht, hcollected, -⟩ := builtMessageLayoutAndDecoding s
  obtain ⟨-, hn, -⟩ := buildSpec_wrote s
  exact ⟨t, ht, hcollected, hn ▸ (buildResult_of_exec ht).bufLen⟩

/-- 3.3 V, 5.0 V and 25.5 degrees as the domain scalers encode them. -/
theorem sfxSpec_scenario_vbat : sfxSpec 12 0x40533333 = computed 0x34CD := by
  rw [← sfx_eq_sfxSpec]
  decide
theorem sfxSpec_scenario_vbus : sfxSpec 12 0x40A00000 = computed 0x5000 := by
  rw [← sfx_eq_sfxSpec]
  decide
theorem sfxSpec_scenario_temp : sfxSpec 8 0x41CC0000 = computed 0x1980 := by
  rw [← sfx_eq_sfxSpec]
  decide

/-- Settles O43: the message of each scenario's record, from the codes of its present values. -/
theorem buildScenarios : Obligations.BuildScenarios := by
  unfold Obligations.BuildScenarios
  refine ⟨fun s hvalid hvbat hvbus => exec_build_of_message ?_, fun s hvalid hboot => exec_build_of_message ?_,
    fun s hvalid hvbat hboot htemp => exec_build_of_message ?_, fun s hvalid => exec_build_of_message ?_⟩
  all_goals unfold message fieldBytes State.present; rw [hvalid]
  · rw [hvbat, hvbus, sfxSpec_scenario_vbat, sfxSpec_scenario_vbus]
    rfl
  · rw [hboot]
    rfl
  · rw [hvbat, hboot, htemp, sfxSpec_scenario_vbat, sfxSpec_scenario_temp]
    rfl
  · rfl

/-! What BUILD depends on (41_buffer_encoder.md R129, R130) -/

/-- The two states' records agree on REC_VALID and on the fields it marks present. -/
structure SamePresentFields (s t : State) : Prop where
  recValid : s.recValid = t.recValid
  recVbat : s.recValid.getLsbD 0 = true → s.recVbat = t.recVbat
  recVbus : s.recValid.getLsbD 1 = true → s.recVbus = t.recVbus
  recBoot : s.recValid.getLsbD 2 = true → s.recBoot = t.recBoot
  recTemp : s.recValid.getLsbD 3 = true → s.recTemp = t.recTemp

theorem SameOperands.samePresentFields {s t : State} (h : SameOperands s t) : SamePresentFields t s :=
  ⟨h.recValid, fun _ => h.recVbat, fun _ => h.recVbus, fun _ => h.recBoot, fun _ => h.recTemp⟩

/-- The pseudocode reads a value register under its valid bit only. -/
theorem SamePresentFields.buildSpec_eq {s t : State} (h : SamePresentFields s t) : buildSpec s = buildSpec t := by
  have read {α : Type} {p : Bool} {x y : α} (hxy : p = true → x = y) (field : α → BuildVars → BuildVars)
      (v : BuildVars) : (if p then field x v else v) = if p then field y v else v :=
    ite_congr rfl (fun hp => congrArg (field · v) (hxy hp)) fun _ => rfl
  have vbat := read h.recVbat fun w v => v.codeField 0x01 (sfxSpec 12 w)
  have vbus := read h.recVbus fun w v => v.codeField 0x02 (sfxSpec 12 w)
  have boot := read h.recBoot fun b v => v.bootField b
  have temp := read h.recTemp fun w v => v.codeField 0x08 (sfxSpec 8 w)
  simp -zeta only [buildSpec, vbat, vbus, boot, temp]
  rw [h.recValid]

/-- BUILDs of agreeing records leave the same BUF, BUF_LEN and STATUS. -/
theorem SamePresentFields.build_eq {s s' t t' : State} (h : SamePresentFields s t) (hs : exec .build s = .next s')
    (ht : exec .build t = .next t') : s'.buf = t'.buf ∧ s'.bufLen = t'.bufLen ∧ s'.status = t'.status := by
  have hsRes := buildResult_of_exec hs
  have htRes := buildResult_of_exec ht
  rw [hsRes.buf, hsRes.bufLen, hsRes.status, htRes.buf, htRes.bufLen, htRes.status, h.buildSpec_eq]
  exact ⟨rfl, rfl, rfl⟩

/-- Settles O44: the pseudocode is a function of the present fields, which a BUILD leaves as they were. -/
theorem buildDependsOnlyOnPresentFields : Obligations.BuildDependsOnlyOnPresentFields := by
  unfold Obligations.BuildDependsOnlyOnPresentFields
  refine ⟨fun s t hvalid hvbat hvbus hboot htemp => ?_, fun s s' hs => ?_⟩
  · obtain ⟨s', hs⟩ := exec_next .build s
    obtain ⟨t', ht⟩ := exec_next .build t
    exact ⟨s', t', hs, ht, SamePresentFields.build_eq ⟨hvalid, hvbat, hvbus, hboot, htemp⟩ hs ht⟩
  · obtain ⟨s'', hs'⟩ := exec_next .build s'
    exact ⟨s'', hs', (exec_build_same hs).samePresentFields.build_eq hs' hs⟩

end Sys2Proof.Machine

/-! The obligations of 42_control.md: NOP (R140) and the illegal command (R141). -/

namespace Sys2Proof

/-- A word that is none of the table's is illegal (30_encoding.md R75). -/
theorem decode_illegal_of_forall_ne_encode {w : Word} (h : ∀ i, w ≠ encode i) : ∃ why, decode w = .illegal why := by
  cases hw : decode w with
  | illegal why => exact ⟨why, rfl⟩
  | legal i => exact absurd (decode_eq_legal.mp hw) (h i)

/-- NOP is the one command of the table with OP = 0x00 (30_encoding.md R74). -/
theorem eq_nop_of_encode_op_eq_zero {i : Instr} (h : (encode i).extractLsb' 0 8 = 0x00) : i = .nop := by
  revert h
  cases i <;> decide

end Sys2Proof

namespace Sys2Proof.Machine

theorem performCommand_of_illegal {w : Word} {why : DecodeError} (h : decode w = .illegal why) (s : State) :
    performCommand w s = .next (s.setStatus 0b001) := by
  rw [performCommand, h]
  rfl

/-- Settles O7: the ten words are the table's, and a word outside the table performs the illegal command. -/
theorem illegalWordOnlySetsIll : Obligations.IllegalWordOnlySetsIll := by
  unfold Obligations.IllegalWordOnlySetsIll
  intro s w hw
  have hne (i : Instr) : w ≠ encode i := by
    rintro rfl
    exact hw (by cases i <;> decide)
  obtain ⟨why, hwhy⟩ := decode_illegal_of_forall_ne_encode hne
  rw [memWrite_base, Nat.cast_zero, perform_cmd, performCommand_of_illegal hwhy]

/-- Settles O19: a legal word with OP = 0x00 would be NOP's, which is 0. -/
theorem nopClearsStatusOnly : Obligations.NopClearsStatusOnly := by
  unfold Obligations.NopClearsStatusOnly
  refine ⟨fun _ => rfl, decode_eq_legal.mpr rfl, fun w hop hw => decode_illegal_of_forall_ne_encode ?_⟩
  rintro i rfl
  obtain rfl := eq_nop_of_encode_op_eq_zero hop
  exact hw rfl

end Sys2Proof.Machine

/-! The obligations that span the block: what a command and an event leave unchanged (10_state.md R22, R24, R37, R38;
20_memory.md R56, R59), STATUS after a command (60_exceptions.md R153), and the invariant between steps. -/

namespace Sys2Proof.Machine

/-! Everything a command can do -/

/-- One of the numeric codecs of 40_quantizer.md. -/
inductive IsCodec : (Word → CodecResult) → Prop
  | sfx (k : ℕ) : IsCodec (sfx k)
  | ufx (k : ℕ) : IsCodec (ufx k)
  | uflt : IsCodec uflt
  | sflt : IsCodec sflt

theorem IsCodec.nan_eq {codec : Word → CodecResult} (h : IsCodec codec) (w : Word) : (codec w).nan = isNaN w := by
  cases h with
  | sfx k => exact sfx_nan k w
  | ufx k => exact ufx_nan k w
  | uflt => exact uflt_nan w
  | sflt => exact sflt_nan w

/-- The one result on a NaN operand is not a saturating one (40_quantizer.md R99). -/
theorem IsCodec.sat_of_isNaN {codec : Word → CodecResult} (h : IsCodec codec) {w : Word} (hw : isNaN w = true) :
    (codec w).sat = false := by
  have hnan : codec w = nanCodec := by
    cases h with
    | sfx k => exact sfx_of_isNaN hw
    | ufx k => exact ufx_of_isNaN hw
    | uflt => exact uflt_of_isNaN hw
    | sflt => exact sflt_of_isNaN hw
  rw [hnan, nanCodec_sat]

theorem exec_quantizer_codec {i : Instr} (hi : i ∈ quantizerCommands) :
    ∃ codec, IsCodec codec ∧ ∀ s, exec i s = .next (s.quantized (codec s.qin)) := by
  cases i with
  | nop | build => exact absurd hi (by decide)
  | qsfxS0 => exact ⟨_, .sfx 0, fun _ => rfl⟩
  | qsfxS8 => exact ⟨_, .sfx 8, fun _ => rfl⟩
  | qsfxS12 => exact ⟨_, .sfx 12, fun _ => rfl⟩
  | qufxS0 => exact ⟨_, .ufx 0, fun _ => rfl⟩
  | qufxS8 => exact ⟨_, .ufx 8, fun _ => rfl⟩
  | qufxS12 => exact ⟨_, .ufx 12, fun _ => rfl⟩
  | quflt16 => exact ⟨_, .uflt, fun _ => rfl⟩
  | qsflt16 => exact ⟨_, .sflt, fun _ => rfl⟩

/-- A command is NOP, a quantizer command or BUILD. -/
theorem instr_cases (i : Instr) : i = .nop ∨ i ∈ quantizerCommands ∨ i = .build := by
  cases i <;> decide

/-- Everything a command can do: NOP clears STATUS, a quantizer command transports a codec's result, and BUILD leaves
what its pseudocode computes. -/
theorem exec_cases {i : Instr} {s t : State} (h : exec i s = .next t) :
    (i = .nop ∧ t = s.setStatus (statusBits false false false)) ∨
    (i ∈ quantizerCommands ∧ ∃ codec, IsCodec codec ∧ t = s.quantized (codec s.qin)) ∨
    (i = .build ∧ BuildResult s t) := by
  obtain rfl | hi | rfl := instr_cases i
  · exact .inl ⟨rfl, (Host.Outcome.next.inj h).symm⟩
  · obtain ⟨codec, hcodec, hexec⟩ := exec_quantizer_codec hi
    exact .inr (.inl ⟨hi, codec, hcodec, Host.Outcome.next.inj (h.symm.trans (hexec s))⟩)
  · exact .inr (.inr ⟨rfl, buildResult_of_exec h⟩)

/-- A command packs STATUS from NAN and SAT with ILL = 0 (10_state.md R29). -/
theorem exec_status {i : Instr} {s t : State} (h : exec i s = .next t) :
    ∃ nan sat, t.status = statusBits false nan sat := by
  obtain ⟨-, rfl⟩ | ⟨-, codec, -, rfl⟩ | ⟨-, hres⟩ := exec_cases h
  · exact ⟨false, false, rfl⟩
  · exact ⟨(codec s.qin).nan, (codec s.qin).sat, rfl⟩
  · exact ⟨_, _, hres.status⟩

theorem exec_ill {i : Instr} {s t : State} (h : exec i s = .next t) : t.ill = false := by
  obtain ⟨nan, sat, hstatus⟩ := exec_status h
  exact State.ill_eq hstatus

/-- Settles O48: every command completes, and packs STATUS with ILL = 0. -/
theorem legalCommandsClearIll : Obligations.LegalCommandsClearIll := by
  unfold Obligations.LegalCommandsClearIll
  intro i s
  obtain ⟨t, ht⟩ := exec_next i s
  exact ⟨t, ht, exec_ill ht⟩

/-! What a command leaves unchanged -/

/-- What only BUILD and a reset may touch: the buffer, BUF_LEN and the build machine (10_state.md R37, R38, R40). -/
structure SameBuffer (s t : State) : Prop where
  buf : t.buf = s.buf
  bufLen : t.bufLen = s.bufLen
  build : t.build = s.build

theorem SameBuffer.bufByte {s t : State} (h : SameBuffer s t) (j : ℕ) : t.bufByte j = s.bufByte j := by
  simp only [State.bufByte, h.buf]

theorem setStatus_sameBuffer (s : State) (v : BitVec 3) : SameBuffer s (s.setStatus v) := ⟨rfl, rfl, rfl⟩

theorem returnRead_sameBuffer (s : State) (v : Word) : SameBuffer s (s.returnRead v) := ⟨rfl, rfl, rfl⟩

theorem Reg.write_sameBuffer (s : State) (v : Word) (r : Reg) : SameBuffer s (r.write s v) := by
  cases r <;> exact ⟨rfl, rfl, rfl⟩

theorem exec_sameBuffer {i : Instr} {s t : State} (h : exec i s = .next t) (hi : i ≠ .build) : SameBuffer s t := by
  obtain ⟨-, rfl⟩ | ⟨-, codec, -, rfl⟩ | ⟨rfl, -⟩ := exec_cases h
  · exact setStatus_sameBuffer s _
  · exact ⟨rfl, rfl, rfl⟩
  · exact absurd rfl hi

theorem exec_qout {i : Instr} {s t : State} (h : exec i s = .next t) (hi : i ∉ quantizerCommands) :
    t.qout = s.qout := by
  obtain ⟨-, rfl⟩ | ⟨hq, -⟩ | ⟨-, hres⟩ := exec_cases h
  · rfl
  · exact absurd hq hi
  · exact hres.operands.qout

/-- But for QOUT, no command touches what BUILD may not touch. -/
theorem exec_same {i : Instr} {s t : State} (h : exec i s = .next t) : SameOperands (s.setQout t.qout) t := by
  obtain ⟨-, rfl⟩ | ⟨-, codec, -, rfl⟩ | ⟨-, hres⟩ := exec_cases h
  · exact setStatus_same s _
  · exact setStatus_same (s.setQout _) _
  · rw [hres.operands.qout]
    exact hres.operands

/-- Settles O45: the three kinds of command, field by field. -/
theorem commandFrames : Obligations.CommandFrames := by
  unfold Obligations.CommandFrames
  intro i s t h
  have hop := exec_same h
  refine ⟨hop.qin, hop.recValid, hop.recVbat, hop.recVbus, hop.recBoot, hop.recTemp, hop.pending, hop.reads,
    fun hi => ?_, fun hi => exec_qout h ?_⟩
  · have hbuf := exec_sameBuffer h hi
    exact ⟨hbuf.bufByte, hbuf.bufLen, hbuf.build⟩
  · obtain rfl | rfl := hi <;> decide

/-! STATUS after a command (60_exceptions.md R153, 10_state.md R28) -/

/-- Settles O52: a codec that reports a NaN did not saturate; 8.0 saturates Vbat's code in a record whose temperature
is a NaN. -/
theorem nanAndSatTogetherOnlyInBuild : Obligations.NanAndSatTogetherOnlyInBuild := by
  unfold Obligations.NanAndSatTogetherOnlyInBuild
  refine ⟨fun i s t hi h => ?_, { State.reset with recValid := 0x9, recVbat := 0x41000000, recTemp := 0x7FC00000 }, _,
    rfl, by decide, by decide⟩
  rintro ⟨hnan, hsat⟩
  obtain ⟨-, rfl⟩ | ⟨-, codec, hcodec, rfl⟩ | ⟨rfl, -⟩ := exec_cases h
  · rw [State.nan_eq rfl] at hnan
    contradiction
  · rw [State.nan_eq rfl, hcodec.nan_eq] at hnan
    rw [State.sat_eq rfl, hcodec.sat_of_isNaN hnan] at hsat
    contradiction
  · exact hi rfl

/-- Settles O53: the codecs report NAN exactly for a NaN operand, and BUILD the OR over the present fields. -/
theorem nanBitMeansNanOperand : Obligations.NanBitMeansNanOperand := by
  unfold Obligations.NanBitMeansNanOperand
  have quantizer {i : Instr} (hi : i ∈ quantizerCommands) (s : State) :
      ∃ t, exec i s = .next t ∧ t.nan = isNaN s.qin := by
    obtain ⟨codec, hcodec, hexec⟩ := exec_quantizer_codec hi
    exact ⟨_, hexec s, (State.nan_eq rfl).trans (hcodec.nan_eq s.qin)⟩
  intro i s
  cases i with
  | nop => exact ⟨_, rfl, State.nan_eq rfl⟩
  | build =>
    obtain ⟨t, ht⟩ := exec_next .build s
    exact ⟨t, ht, (State.nan_eq (buildResult_of_exec ht).status).trans (buildSpec_nan s)⟩
  | qsfxS0 | qsfxS8 | qsfxS12 | qufxS0 | qufxS8 | qufxS12 | quflt16 | qsflt16 => exact quantizer (by decide) s

/-! The message in the buffer after BUILD (41_buffer_encoder.md R124, R125) -/

/-- A buffer that holds the bytes reads as them, and as 0x00 past them. -/
theorem BufHolds.bufByte {s : State} {bytes : List Byte} (h : BufHolds s.buf bytes) (i : ℕ) :
    s.bufByte i = bytes[i]?.getD 0 := by
  have hget : s.buf[i]? = (bytes ++ List.replicate (9 - bytes.length) 0)[i]? := by
    rw [← h, Vector.getElem?_toList]
  rw [State.bufByte, hget]
  by_cases hi : i < bytes.length
  · rw [List.getElem?_append_left hi]
  · rw [List.getElem?_append_right (not_lt.mp hi), List.getElem?_replicate, List.getElem?_eq_none (not_lt.mp hi)]
    split <;> rfl

theorem length_optional (p : Bool) (bytes : List Byte) : (if p then bytes else []).length = bytes.length * p.toNat := by
  cases p <;> simp

/-- Two bytes of header and the flagged fields' widths (41_buffer_encoder.md R125). -/
theorem message_length (s : State) : (message s).length = 2 + fieldWidths (s.recValid.setWidth 8) := by
  have flag {i : ℕ} (hi : i < 4) : (s.recValid.setWidth 8).getLsbD i = s.present i := by
    rw [BitVec.getLsbD_setWidth, decide_eq_true (by omega), Bool.true_and, State.present]
  simp only [message, fieldBytes, fieldWidths, flag, Nat.reduceLT, List.length_cons, List.length_append,
    length_optional, bigEndian, List.length_nil]
  omega

theorem BuildResult.holds {s t : State} (h : BuildResult s t) : BufHolds t.buf (message s) := by
  obtain ⟨hbuf, -, -⟩ := buildSpec_wrote s
  exact h.buf ▸ hbuf

/-- The write index ends behind the message, within the buffer (10_state.md R39). -/
theorem BuildResult.n {s t : State} (h : BuildResult s t) :
    t.build.n = (message s).length ∧ (message s).length ≤ 9 := by
  obtain ⟨-, hn, hroom⟩ := buildSpec_wrote s
  exact ⟨(congrArg BuildVars.n h.vars).trans hn, hroom⟩

theorem BuildResult.bufLen_toNat {s t : State} (h : BuildResult s t) : t.bufLen.toNat = (message s).length := by
  obtain ⟨-, hn, hroom⟩ := buildSpec_wrote s
  rw [h.bufLen, hn, BitVec.toNat_ofNat, Nat.mod_eq_of_lt (by omega)]

/-- Settles O40: byte 1 and the length of the message in the buffer. -/
theorem buildFlagsAndLength : Obligations.BuildFlagsAndLength := by
  unfold Obligations.BuildFlagsAndLength
  intro s
  obtain ⟨t, ht⟩ := exec_next .build s
  have hres := buildResult_of_exec ht
  refine ⟨t, ht, ?_, ?_⟩
  · exact hres.holds.bufByte 1
  · rw [hres.bufLen_toNat, message_length, fieldWidths]
    simp
    omega

/-- What BUILD leaves is a message (30_encoding.md R87). -/
theorem BuildResult.bufferBuilt {s t : State} (h : BuildResult s t) : t.bufferBuilt := by
  have hflags : t.bufByte 1 = s.recValid.setWidth 8 := h.holds.bufByte 1
  have upper : (s.recValid.setWidth 8).extractLsb' 4 4 = 0 := by
    generalize s.recValid = valid
    revert valid
    decide
  refine ⟨h.holds.bufByte 0, hflags ▸ upper, ?_, fun i hi => ?_⟩
  · rw [h.bufLen_toNat, message_length, hflags]
  · rw [h.bufLen_toNat] at hi
    rw [h.holds.bufByte, List.getElem?_eq_none hi]
    rfl

/-! The invariant -/

/-- ILL excludes NAN and SAT (60_exceptions.md R153). -/
def State.IllAlone (s : State) : Prop := s.ill = true → s.nan = false ∧ s.sat = false

theorem illAlone_of_status_eq {s t : State} (hs : s.IllAlone) (h : t.status = s.status) : t.IllAlone := by
  simpa only [State.IllAlone, State.ill, State.nan, State.sat, h] using hs

theorem exec_illAlone {i : Instr} {s t : State} (h : exec i s = .next t) : t.IllAlone := fun hill => by
  rw [exec_ill h] at hill
  contradiction

/-- An event that leaves the buffer and its machine alone keeps the invariant's clauses about them. -/
theorem State.Inv.of_sameBuffer {s t : State} (hs : s.Inv) (h : SameBuffer s t) (hill : t.IllAlone) : t.Inv := by
  obtain ⟨hidle, hn, -, hbuffer⟩ := hs
  refine ⟨h.build ▸ hidle, h.build ▸ hn, hill, ?_⟩
  simpa only [bufferEmpty, bufferBuilt, h.bufByte, h.buf, h.bufLen] using hbuffer

theorem BuildResult.inv {s t : State} (h : BuildResult s t) : t.Inv := by
  obtain ⟨hn, hroom⟩ := h.n
  have hill : t.IllAlone := fun hill => by
    rw [State.ill_eq h.status] at hill
    contradiction
  exact ⟨h.idle, hn ▸ hroom, hill, .inr h.bufferBuilt⟩

/-- The invariant asks nothing of the host's side, which a reset leaves as it was. -/
theorem State.applyReset_inv (s : State) : s.applyReset.Inv := by
  have hstatus : s.applyReset.status = statusBits false false false := rfl
  exact ⟨rfl, Nat.zero_le 9, fun _ => ⟨State.nan_eq hstatus, State.sat_eq hstatus⟩, .inl ⟨rfl, rfl⟩⟩

theorem exec_keeps_inv {i : Instr} {s t : State} (hs : s.Inv) (h : exec i s = .next t) : t.Inv := by
  by_cases hi : i = .build
  · subst hi
    exact (buildResult_of_exec h).inv
  · exact hs.of_sameBuffer (exec_sameBuffer h hi) (exec_illAlone h)

theorem perform_keeps_inv {e : HostEvent} {s t : State} (hs : s.Inv) (h : perform e s = .next t) : t.Inv := by
  have hill : s.IllAlone := by
    obtain ⟨-, -, hill, -⟩ := hs
    exact hill
  obtain ⟨disp, n, r, -, -, rfl⟩ | ⟨w, -, hcmd⟩ | ⟨disp, v, r, -, -, -, rfl⟩ | ⟨-, rfl⟩ := perform_cases h
  · exact hs.of_sameBuffer (returnRead_sameBuffer s _) (illAlone_of_status_eq hill (State.returnRead_status s _))
  · obtain ⟨i, -, hexec⟩ | ⟨why, -, rfl⟩ := performCommand_cases hcmd
    · exact exec_keeps_inv hs hexec
    · exact hs.of_sameBuffer (setStatus_sameBuffer s _) fun _ => ⟨State.nan_eq rfl, State.sat_eq rfl⟩
  · exact hs.of_sameBuffer (Reg.write_sameBuffer s v r) (illAlone_of_status_eq hill (Reg.write_status s v r))
  · exact s.applyReset_inv

theorem step_of_pending_nil {s : State} (h : s.pending = []) : step s = .next s := by
  rw [step, h]

theorem step_of_pending_cons {s : State} {e : HostEvent} {rest : List HostEvent} (h : s.pending = e :: rest) :
    step s = perform e (s.setPending rest) := by
  rw [step, h]

/-- Settles O54: a step is an event from a state that differs in the host's side only, and each event keeps the
invariant. -/
theorem stepKeepsInvariant : Obligations.StepKeepsInvariant := by
  unfold Obligations.StepKeepsInvariant
  intro s t hs h
  cases hp : s.pending with
  | nil =>
    obtain rfl : s = t := Host.Outcome.next.inj ((step_of_pending_nil hp).symm.trans h)
    exact hs
  | cons e rest =>
    rw [step_of_pending_cons hp] at h
    have hs' : (s.setPending rest).Inv := hs
    exact perform_keeps_inv hs' h

/-- Settles O55: a reset leaves `State.reset` itself when the host has nothing to do and has read nothing. -/
theorem resetMeetsInvariant : Obligations.ResetMeetsInvariant := by
  unfold Obligations.ResetMeetsInvariant
  exact State.reset.applyReset_inv

end Sys2Proof.Machine

/-! The obligations of 30_encoding.md R70 to R75: which words are legal. -/

namespace Sys2Proof

/-- The scales QSFX and QUFX take (30_encoding.md R72). -/
theorem scale_cases : ∀ sc : BitVec 2, sc ≠ 0b11 → sc = 0b00 ∨ sc = 0b01 ∨ sc = 0b10 := by
  decide

/-- The fields that pass the three checks are those of the table's commands (30_encoding.md R71 to R74). -/
theorem Command.wellFormed_iff {c : Command} : c.wellFormed = true ↔ ∃ i : Instr, c = i.command := by
  constructor
  · obtain ⟨rsv, sc, op⟩ := c
    simp only [wellFormed, rsvZero, opDefined, scAllowed, takesScale, Bool.and_eq_true, Bool.or_eq_true, beq_iff_eq,
      or_assoc]
    rintro ⟨⟨rfl, rfl | rfl | rfl | rfl | rfl | rfl⟩, hsc⟩
    · obtain rfl : sc = 0 := by simpa using hsc
      exact ⟨.nop, rfl⟩
    · obtain rfl | rfl | rfl := scale_cases sc (by simpa using hsc)
      exacts [⟨.qsfxS0, rfl⟩, ⟨.qsfxS8, rfl⟩, ⟨.qsfxS12, rfl⟩]
    · obtain rfl | rfl | rfl := scale_cases sc (by simpa using hsc)
      exacts [⟨.qufxS0, rfl⟩, ⟨.qufxS8, rfl⟩, ⟨.qufxS12, rfl⟩]
    · obtain rfl : sc = 0 := by simpa using hsc
      exact ⟨.quflt16, rfl⟩
    · obtain rfl : sc = 0 := by simpa using hsc
      exact ⟨.qsflt16, rfl⟩
    · obtain rfl : sc = 0 := by simpa using hsc
      exact ⟨.build, rfl⟩
  · rintro ⟨i, rfl⟩
    cases i <;> rfl

/-- Settles O2: the decoder answers a command on its fields and on no others. -/
theorem legalIffFieldsWellFormed : Obligations.LegalIffFieldsWellFormed := by
  unfold Obligations.LegalIffFieldsWellFormed
  intro w
  rw [Command.wellFormed_iff]
  refine exists_congr fun i => ⟨eq_command_of_decodeFields, fun h => ?_⟩
  rw [decode, h, decodeFields_command]

/-- Settles O4: each word is the encoding of its command. -/
theorem tableWordsDecode : Obligations.TableWordsDecode := by
  unfold Obligations.TableWordsDecode
  exact ⟨decode_eq_legal.mpr rfl, decode_eq_legal.mpr rfl, decode_eq_legal.mpr rfl, decode_eq_legal.mpr rfl,
    decode_eq_legal.mpr rfl, decode_eq_legal.mpr rfl⟩

end Sys2Proof

/-! The obligations of 20_memory.md and 60_exceptions.md about accesses: which are admitted and what the others are
called (R53), reads and reserved offsets (R56, R57), repetition (R59), which events write a register (10_state.md R22,
R24, R37, R38), and runs (60_exceptions.md R164). -/

namespace Sys2Proof.Machine

/-! One step -/

/-- Settles O5: the two branches of `step`. -/
theorem stepPerformsOldestEvent : Obligations.StepPerformsOldestEvent := by
  unfold Obligations.StepPerformsOldestEvent
  exact ⟨fun _ _ _ h => step_of_pending_cons h, fun _ h => step_of_pending_nil h⟩

/-- Settles O6: the event at BASE + 0x00 performs its word, and a legal word is its command. -/
theorem stepRunsDecodedCommand : Obligations.StepRunsDecodedCommand := by
  unfold Obligations.StepRunsDecodedCommand
  intro s rest w i hp hw
  rw [step_of_pending_cons hp, memWrite_base, Nat.cast_zero, perform_cmd, performCommand, hw]

/-! Which accesses are admitted (20_memory.md R53) -/

theorem perform_read_of_admitted {disp : ℤ} {n : ℕ} {r : Reg} (ha : admission disp n = .admitted r) (s : State) :
    perform (.read disp n) s = .next (s.returnRead (r.read s)) := by
  simp only [perform, busRead, ha]

theorem perform_read_of_refused {disp : ℤ} {n : ℕ} {why : Refusal} (ha : admission disp n = .refused why) (s : State) :
    perform (.read disp n) s = .refused why := by
  simp only [perform, busRead, ha]

theorem perform_write_of_refused {disp : ℤ} {n : ℕ} {why : Refusal} (ha : admission disp n = .refused why) (v : Word)
    (s : State) : perform (.write disp n v) s = .refused why := by
  simp only [perform, busWrite, ha]

/-- An admitted write completes, for every command does (60_exceptions.md R150). -/
theorem perform_write_next {disp : ℤ} {n : ℕ} {r : Reg} (ha : admission disp n = .admitted r) (v : Word) (s : State) :
    ∃ t, perform (.write disp n v) s = .next t := by
  by_cases hr : r = .cmd
  · obtain ⟨t, ht⟩ := performCommand_next v s
    subst hr
    refine ⟨t, ?_⟩
    simpa only [perform, busWrite, ha] using ht
  · exact ⟨_, perform_write_of_admitted ha hr v s⟩

theorem admission_admitted_or_refused (disp : ℤ) (n : ℕ) :
    (∃ r, admission disp n = .admitted r) ∨ ∃ why, admission disp n = .refused why := by
  cases admission disp n with
  | admitted r => exact .inl ⟨r, rfl⟩
  | refused why => exact .inr ⟨why, rfl⟩

/-- The displacement of an aligned address of the window is an aligned offset: BASE is a multiple of 4. -/
theorem admission_memAddr_iff {addr n : ℕ} :
    (∃ r, admission ((addr : ℤ) - Config.base) n = .admitted r) ↔
      n = 4 ∧ Config.base ≤ addr ∧ addr ≤ Config.base + 0x7F ∧ addr % 4 = 0 := by
  have hbase := base_mod_four
  simp only [admission_eq_admitted, exists_and_left, exists_eq, and_true]
  omega

/-- Settles O8: an admitted access completes and any other is refused. -/
theorem admittedAccessesAreAlignedWords : Obligations.AdmittedAccessesAreAlignedWords := by
  unfold Obligations.AdmittedAccessesAreAlignedWords
  intro s addr n v ok
  refine ⟨fun hok => ?_, fun hok => ?_⟩
  · obtain ⟨r, ha⟩ := admission_memAddr_iff.mpr hok
    exact ⟨⟨_, perform_read_of_admitted ha s⟩, perform_write_next ha v s⟩
  · obtain ha | ⟨why, ha⟩ := admission_admitted_or_refused ((addr : ℤ) - Config.base) n
    · exact absurd (admission_memAddr_iff.mp ha) hok
    · exact ⟨⟨why, perform_read_of_refused ha s⟩, why, perform_write_of_refused ha v s⟩

/-! The names of the refusals, in the order in which the conditions are tested (log entry 6) -/

theorem admission_accessWidth {disp : ℤ} {n : ℕ} (hn : n ≠ 4) : admission disp n = .refused .accessWidth :=
  if_pos hn

theorem admission_outsideWindow {disp : ℤ} (h : disp + 4 ≤ 0 ∨ 128 ≤ disp) :
    admission disp 4 = .refused .outsideWindow :=
  (if_neg (not_not.mpr rfl)).trans (if_pos h)

theorem admission_crossesWindow {disp : ℤ} (h : (disp < 0 ∧ 0 < disp + 4) ∨ (disp < 128 ∧ 128 < disp + 4)) :
    admission disp 4 = .refused .crossesWindow := by
  have hinside : ¬(disp + 4 ≤ 0 ∨ 128 ≤ disp) := by omega
  have hcrosses : disp < 0 ∨ 128 < disp + 4 := by omega
  exact (if_neg (not_not.mpr rfl)).trans ((if_neg hinside).trans (if_pos hcrosses))

theorem admission_misaligned {disp : ℤ} (h0 : 0 ≤ disp) (h1 : disp + 4 ≤ 128) (hmod : disp % 4 ≠ 0) :
    admission disp 4 = .refused .misaligned := by
  have hinside : ¬(disp + 4 ≤ 0 ∨ 128 ≤ disp) := by omega
  have hwithin : ¬(disp < 0 ∨ 128 < disp + 4) := by omega
  exact (if_neg (not_not.mpr rfl)).trans ((if_neg hinside).trans ((if_neg hwithin).trans (if_pos hmod)))

/-- Settles O9: the conditions on the address are those on its displacement from BASE. -/
theorem refusalNames : Obligations.RefusalNames := by
  unfold Obligations.RefusalNames
  intro s addr n v refusedAs
  have hbase := base_mod_four
  have refused {why : Refusal} (ha : admission ((addr : ℤ) - Config.base) n = .refused why) : refusedAs why :=
    ⟨perform_read_of_refused ha s, perform_write_of_refused ha v s⟩
  refine ⟨fun hn => refused (admission_accessWidth hn), ?_, ?_, ?_⟩ <;> rintro rfl
  · exact fun h => refused (admission_outsideWindow (by omega))
  · exact fun h => refused (admission_crossesWindow (by omega))
  · exact fun h0 h1 hmod => refused (admission_misaligned (by omega) (by omega) (by omega))

/-! Reads and reserved offsets (20_memory.md R56, R57) -/

/-- At an aligned offset of the window a 32-bit read returns what the register there holds. -/
theorem perform_memRead {off : ℕ} (hoff : off ≤ 124 ∧ off % 4 = 0) (s : State) :
    perform (memRead (Config.base + off) 4) s = .next (s.returnRead ((Reg.ofOffset off).read s)) := by
  obtain ⟨hle, hmod⟩ := hoff
  have ha : admission off 4 = .admitted (Reg.ofOffset off) :=
    admission_eq_admitted.mpr ⟨rfl, by omega, by omega, by omega, rfl⟩
  rw [memRead_base, perform_read_of_admitted ha]

theorem State.bufByte_eq_getElem (s : State) (i : Fin 9) : s.bufByte i = s.buf[i] := by
  simp [bufByte]

/-- Settles O10: the registers at the offsets of the map, each with its held bits. -/
theorem readsReturnHeldBits : Obligations.ReadsReturnHeldBits := by
  unfold Obligations.ReadsReturnHeldBits
  intro s rd
  have reads (off : ℕ) (hoff : off ≤ 124 ∧ off % 4 = 0) : rd off = .next (s.returnRead ((Reg.ofOffset off).read s)) :=
    perform_memRead hoff s
  refine ⟨reads 0x00 (by decide), reads 0x04 (by decide), reads 0x08 (by decide), reads 0x0C (by decide),
    reads 0x10 (by decide), reads 0x14 (by decide), reads 0x18 (by decide), reads 0x1C (by decide),
    reads 0x20 (by decide), reads 0x24 (by decide), reads 0x28 (by decide), fun i => ?_⟩
  rw [reads _ (by omega), ofOffset_buf, Reg.read, State.bufByte_eq_getElem]

/-- The offsets without a register (20_memory.md R50). -/
theorem ofOffset_reserved :
    ∀ off < 128, off % 4 = 0 → (off = 0x2C ∨ (0x54 ≤ off ∧ off ≤ 0x7C)) → Reg.ofOffset off = .reserved := by
  decide

/-- Settles O11: the register map has nothing at these offsets. -/
theorem reservedOffsetsReadZeroIgnoreWrites : Obligations.ReservedOffsetsReadZeroIgnoreWrites := by
  unfold Obligations.ReservedOffsetsReadZeroIgnoreWrites
  intro s v off hmod hoff
  have hr : Reg.ofOffset off = .reserved := ofOffset_reserved off (by omega) hmod hoff
  rw [perform_memRead (by omega), perform_memWrite (by omega), hr]
  exact ⟨rfl, rfl⟩

/-! Repetition (20_memory.md R59) -/

/-- A state is the parts a BUILD keeps and those it writes. -/
theorem SameOperands.eq_of_parts {s t : State} (h : SameOperands s t) (hvars : t.vars = s.vars)
    (hidle : t.build.bs = s.build.bs) (hlen : t.bufLen = s.bufLen) (hstatus : t.status = s.status) : t = s := by
  obtain ⟨hqin, hqout, hvalid, hvbat, hvbus, hboot, htemp, hpending, hreads⟩ := h
  obtain ⟨_, _, _, _, _, _, _, _, _, _, ⟨_, _, _, _, _⟩, _, _⟩ := s
  obtain ⟨_, _, _, _, _, _, _, _, _, _, ⟨_, _, _, _, _⟩, _, _⟩ := t
  simp_all [State.vars]

/-- BUILD's result is a function of the record, which BUILD keeps. -/
theorem BuildResult.eq_of_again {s t u : State} (h : BuildResult s t) (h' : BuildResult t u) : u = t := by
  have hspec : buildSpec t = buildSpec s := h.operands.samePresentFields.buildSpec_eq
  refine h'.operands.eq_of_parts ?_ (h'.idle.trans h.idle.symm) ?_ ?_
  · rw [h'.vars, h.vars, hspec]
  · rw [h'.bufLen, h.bufLen, hspec]
  · rw [h'.status, h.status, hspec]

theorem exec_again {i : Instr} {s t : State} (h : exec i s = .next t) : exec i t = .next t := by
  obtain rfl | hi | rfl := instr_cases i
  · obtain rfl : s.setStatus _ = t := Host.Outcome.next.inj h
    rfl
  · obtain ⟨codec, -, hexec⟩ := exec_quantizer_codec hi
    obtain rfl : s.quantized (codec s.qin) = t := Host.Outcome.next.inj ((hexec s).symm.trans h)
    exact hexec _
  · obtain ⟨u, hu⟩ := exec_next .build t
    rwa [(buildResult_of_exec h).eq_of_again (buildResult_of_exec hu)] at hu

theorem Reg.write_again (s : State) (v : Word) (r : Reg) : r.write (r.write s v) v = r.write s v := by
  cases r <;> rfl

/-- Settles O47: a command's operands are not its results, and a register keeps the value written to it. -/
theorem repeatedAccessesIdempotent : Obligations.RepeatedAccessesIdempotent := by
  unfold Obligations.RepeatedAccessesIdempotent
  refine ⟨fun i s t h => exec_again h, fun addr n v s t haddr h => ?_⟩
  obtain ⟨_, _, _, he, -, -⟩ | ⟨w, he, -⟩ | ⟨disp, v', r, he, hr, ha, rfl⟩ | ⟨he, -⟩ := perform_cases h
  · cases he
  · obtain ⟨hdisp, -, -⟩ := HostEvent.write.inj he
    omega
  · rw [he, perform_write_of_admitted ha hr, Reg.write_again]
  · cases he

/-! Which events write a register -/

@[simp] theorem Reg.write_qout (s : State) (v : Word) (r : Reg) : (r.write s v).qout = s.qout := by
  cases r <;> rfl

/-- The words of the quantizer commands (30_encoding.md R74). -/
theorem encode_quantizer {i : Instr} (hi : i ∈ quantizerCommands) :
    encode i ∈ ([0x00000001, 0x00000101, 0x00000201, 0x00000002, 0x00000102, 0x00000202, 0x00000003,
      0x00000004] : List Word) := by
  revert hi
  cases i <;> decide

/-- Settles O49: NOP, BUILD and the illegal command leave QOUT, and no access stores in it. -/
theorem onlyQuantizersWriteQout : Obligations.OnlyQuantizersWriteQout := by
  unfold Obligations.OnlyQuantizersWriteQout
  simp only [memWrite_base, Nat.cast_zero]
  intro e s t h hne
  obtain ⟨_, _, _, -, -, rfl⟩ | ⟨w, rfl, hcmd⟩ | ⟨_, v, r, -, -, -, rfl⟩ | ⟨rfl, -⟩ := perform_cases h
  · exact absurd rfl hne
  · obtain ⟨i, hw, hexec⟩ | ⟨_, -, rfl⟩ := performCommand_cases hcmd
    · have hi : i ∈ quantizerCommands := not_not.mp fun hi => hne (exec_qout hexec hi)
      obtain rfl := decode_eq_legal.mp hw
      exact .inr ⟨encode i, encode_quantizer hi, rfl⟩
    · exact absurd rfl hne
  · exact absurd (Reg.write_qout s v r) hne
  · exact .inl rfl

/-- An event other than a reset and the word of BUILD leaves the buffer and its machine alone. -/
theorem perform_sameBuffer {e : HostEvent} {s t : State} (h : perform e s = .next t) :
    SameBuffer s t ∨ e = .reset ∨ e = .write 0 4 (encode .build) := by
  obtain ⟨_, _, _, -, -, rfl⟩ | ⟨w, rfl, hcmd⟩ | ⟨_, v, r, -, -, -, rfl⟩ | ⟨rfl, -⟩ := perform_cases h
  · exact .inl (returnRead_sameBuffer s _)
  · obtain ⟨i, hw, hexec⟩ | ⟨_, -, rfl⟩ := performCommand_cases hcmd
    · obtain rfl := decode_eq_legal.mp hw
      by_cases hi : i = .build
      · exact .inr (.inr (hi ▸ rfl))
      · exact .inl (exec_sameBuffer hexec hi)
    · exact .inl (setStatus_sameBuffer s _)
  · exact .inl (Reg.write_sameBuffer s v r)
  · exact .inr (.inl rfl)

/-- Settles O50: any other event leaves the buffer and BUF_LEN alone. -/
theorem onlyBuildWritesBuffer : Obligations.OnlyBuildWritesBuffer := by
  unfold Obligations.OnlyBuildWritesBuffer
  simp only [memWrite_base, Nat.cast_zero]
  intro e s t h hne
  obtain hsame | he := perform_sameBuffer h
  · exact absurd hne (by simp [hsame.buf, hsame.bufLen])
  · exact he

/-- A register with a name is reached at its own offset only (20_memory.md R50). -/
theorem offset_of_admitted {disp : ℤ} {r : Reg} (ha : admission disp 4 = .admitted r) (hr : r ≠ .reserved) :
    disp = r.offset := by
  have words : ∀ k < 32, Reg.ofOffset (4 * k) ≠ .reserved → (Reg.ofOffset (4 * k)).offset = 4 * k := by decide
  obtain ⟨-, h0, h1, hmod, rfl⟩ := admission_eq_admitted.mp ha
  obtain ⟨k, rfl⟩ : ∃ k : ℕ, disp = (4 * k : ℕ) := ⟨(disp / 4).toNat, by omega⟩
  rw [Int.toNat_natCast] at hr ⊢
  rw [words k (by omega) hr]

/-- The projection `get` is what the operand register `r` holds: writes to other registers, reads and commands leave
it (10_state.md R22). -/
structure HoldsOperand {α : Type} (get : State → α) (r : Reg) : Prop where
  named : r ≠ .reserved
  returnRead : ∀ s v, get (s.returnRead v) = get s
  setStatus : ∀ s v, get (s.setStatus v) = get s
  exec : ∀ {i s t}, exec i s = .next t → get t = get s
  write : ∀ {r'} s v, r' ≠ r → get (r'.write s v) = get s

/-- An event that changes an operand register is a reset or a write to that register. -/
theorem HoldsOperand.perform_ne {α : Type} {get : State → α} {r : Reg} (hget : HoldsOperand get r) {e : HostEvent}
    {s t : State} (h : perform e s = .next t) (hne : get t ≠ get s) : e = .reset ∨ ∃ v, e = .write r.offset 4 v := by
  obtain ⟨_, _, _, -, -, rfl⟩ | ⟨w, rfl, hcmd⟩ | ⟨disp, v, r', rfl, -, ha, rfl⟩ | ⟨rfl, -⟩ := perform_cases h
  · exact absurd (hget.returnRead _ _) hne
  · obtain ⟨i, -, hexec⟩ | ⟨_, -, rfl⟩ := performCommand_cases hcmd
    · exact absurd (hget.exec hexec) hne
    · exact absurd (hget.setStatus _ _) hne
  · obtain rfl : r' = r := not_not.mp fun hr => hne (hget.write s v hr)
    exact .inr ⟨v, by rw [offset_of_admitted ha hget.named]⟩
  · exact .inl rfl

/-! The six operand registers (10_state.md R23, R32 to R35) -/

theorem qin_holdsOperand : HoldsOperand State.qin .qin :=
  ⟨by decide, fun _ _ => rfl, fun _ _ => rfl, fun h => (exec_same h).qin, fun {r'} _ _ hr => by cases r' <;> trivial⟩

theorem recValid_holdsOperand : HoldsOperand State.recValid .recValid :=
  ⟨by decide, fun _ _ => rfl, fun _ _ => rfl, fun h => (exec_same h).recValid,
    fun {r'} _ _ hr => by cases r' <;> trivial⟩

theorem recVbat_holdsOperand : HoldsOperand State.recVbat .recVbat :=
  ⟨by decide, fun _ _ => rfl, fun _ _ => rfl, fun h => (exec_same h).recVbat,
    fun {r'} _ _ hr => by cases r' <;> trivial⟩

theorem recVbus_holdsOperand : HoldsOperand State.recVbus .recVbus :=
  ⟨by decide, fun _ _ => rfl, fun _ _ => rfl, fun h => (exec_same h).recVbus,
    fun {r'} _ _ hr => by cases r' <;> trivial⟩

theorem recBoot_holdsOperand : HoldsOperand State.recBoot .recBoot :=
  ⟨by decide, fun _ _ => rfl, fun _ _ => rfl, fun h => (exec_same h).recBoot,
    fun {r'} _ _ hr => by cases r' <;> trivial⟩

theorem recTemp_holdsOperand : HoldsOperand State.recTemp .recTemp :=
  ⟨by decide, fun _ _ => rfl, fun _ _ => rfl, fun h => (exec_same h).recTemp,
    fun {r'} _ _ hr => by cases r' <;> trivial⟩

/-- Settles O51: the six registers are operand registers at these offsets. -/
theorem onlyHostWritesOperands : Obligations.OnlyHostWritesOperands := by
  unfold Obligations.OnlyHostWritesOperands
  simp only [memWrite_base]
  exact fun e s t h => ⟨qin_holdsOperand.perform_ne h, recValid_holdsOperand.perform_ne h,
    recVbat_holdsOperand.perform_ne h, recVbus_holdsOperand.perform_ne h, recBoot_holdsOperand.perform_ne h,
    recTemp_holdsOperand.perform_ne h⟩

/-! The host's side, and runs (60_exceptions.md R164; log entry 3) -/

theorem Reg.write_hostSide (s : State) (v : Word) (r : Reg) :
    (r.write s v).pending = s.pending ∧ (r.write s v).reads = s.reads := by
  cases r <;> exact ⟨rfl, rfl⟩

theorem performCommand_hostSide {w : Word} {s t : State} (h : performCommand w s = .next t) :
    t.pending = s.pending ∧ t.reads = s.reads := by
  obtain ⟨i, -, hexec⟩ | ⟨_, -, rfl⟩ := performCommand_cases h
  · exact ⟨(exec_same hexec).pending, (exec_same hexec).reads⟩
  · exact ⟨rfl, rfl⟩

/-- Settles O15: the four kinds of event. -/
theorem eventsKeepHostSide : Obligations.EventsKeepHostSide := by
  unfold Obligations.EventsKeepHostSide
  intro e s t h
  obtain ⟨_, _, r, rfl, -, rfl⟩ | ⟨w, rfl, hcmd⟩ | ⟨_, v, r, rfl, -, -, rfl⟩ | ⟨rfl, rfl⟩ := perform_cases h
  · exact ⟨rfl, r.read s, rfl⟩
  · exact performCommand_hostSide hcmd
  · exact r.write_hostSide s v
  · exact ⟨rfl, rfl⟩

/-- Settles O18: a reset takes every register of the block from `State.reset`. -/
theorem resetRestoresEveryRegister : Obligations.ResetRestoresEveryRegister := by
  unfold Obligations.ResetRestoresEveryRegister
  exact fun s => ⟨s.applyReset, rfl, rfl, rfl, rfl, rfl, rfl, rfl, rfl, rfl, rfl,
    fun i => State.reset_buf_getElem i.isLt, rfl⟩

/-- The event is a read, whose value the host's record gets. -/
def HostEvent.isRead : HostEvent → Bool
  | .read _ _ => true
  | .write _ _ _ | .reset => false

theorem perform_reads_length {e : HostEvent} {s t : State} (h : perform e s = .next t) :
    t.reads.length = s.reads.length + e.isRead.toNat := by
  obtain ⟨-, hreads⟩ := eventsKeepHostSide e s t h
  cases e with
  | read disp n =>
    obtain ⟨v, rfl⟩ := hreads
    exact List.length_append
  | write disp n v => exact congrArg List.length hreads
  | reset => exact congrArg List.length hreads

/-- The two forms of 20_memory.md R53's condition. -/
theorem admission_of_isAdmitted {disp : ℤ} {n : ℕ} (h : (HostEvent.read disp n).isAdmitted = true) :
    admission disp n = .admitted (Reg.ofOffset disp.toNat) := by
  simp only [HostEvent.isAdmitted, Bool.and_eq_true, beq_iff_eq, decide_eq_true_eq] at h
  obtain ⟨⟨⟨hn, h0⟩, h1⟩, hmod⟩ := h
  exact admission_eq_admitted.mpr ⟨hn, h0, by omega, hmod, rfl⟩

theorem perform_next_of_isAdmitted {e : HostEvent} (h : e.isAdmitted = true) (s : State) :
    ∃ t, perform e s = .next t := by
  cases e with
  | read disp n => exact ⟨_, perform_read_of_admitted (admission_of_isAdmitted h) s⟩
  | write disp n v => exact perform_write_next (admission_of_isAdmitted (n := n) h) v s
  | reset => exact ⟨_, rfl⟩

/-- A run takes a step and goes on. -/
theorem run_succ {M : Host.Core} {s t : M.State} (h : M.step s = .next t) (k : ℕ) : M.run (k + 1) s = M.run k t := by
  rw [Host.Core.run, h]

/-- A queue of admitted events is performed one by one, each read adding a value to the record. -/
theorem run_to_end (es : List HostEvent) : ∀ s : State, s.pending = es → es.all HostEvent.isAdmitted = true →
    ∃ t : State, core.run es.length s = .next t ∧ t.pending = [] ∧
      t.reads.length = s.reads.length + (es.filter HostEvent.isRead).length := by
  induction es with
  | nil => exact fun s hp _ => ⟨s, rfl, hp, rfl⟩
  | cons e rest ih =>
    intro s hp hall
    rw [List.all_cons, Bool.and_eq_true] at hall
    obtain ⟨he, hrest⟩ := hall
    obtain ⟨u, hu⟩ := perform_next_of_isAdmitted he (s.setPending rest)
    obtain ⟨hpending, -⟩ := eventsKeepHostSide e _ u hu
    obtain ⟨t, hrun, hend, hlen⟩ := ih u hpending hrest
    refine ⟨t, ?_, hend, ?_⟩
    · exact (run_succ (M := core) ((step_of_pending_cons hp).trans hu) rest.length).trans hrun
    · rw [hlen, perform_reads_length hu, State.setPending_reads]
      cases hread : e.isRead
      · rw [List.filter_cons_of_neg (by simp [hread]), Bool.toNat_false, add_zero]
      · rw [List.filter_cons_of_pos hread, List.length_cons, Bool.toNat_true, add_right_comm, add_assoc]

/-- Settles O56: the run of a safe state's whole queue. -/
theorem admittedAccessesRunToTheEnd : Obligations.AdmittedAccessesRunToTheEnd := by
  unfold Obligations.AdmittedAccessesRunToTheEnd
  exact fun s hsafe => run_to_end s.pending s rfl hsafe

end Sys2Proof.Machine

/-! The obligations of 40_quantizer.md: rounding (R91), the laws of the fixed-point codecs (R98, R100) and of the
compact floats (R95, R97, R101), and the commands on +0.0 (70_reset_and_hazards.md R173). -/

namespace Sys2Proof.Machine

/-- Settles O21: the machine's rounding is the rational one, and the six ties are evaluated. -/
theorem roundingIsHalfUp : Obligations.RoundingIsHalfUp := by
  unfold Obligations.RoundingIsHalfUp
  exact ⟨fun num _ hd => rhu_eq_roundHalfUp num hd, by decide, by decide, by decide, by decide, by decide, by decide⟩

/-- Settles O29: no codec saturates on +0.0, whose compact codes have the exponent field 15. -/
theorem quantizersOnResetOperand : Obligations.QuantizersOnResetOperand := by
  unfold Obligations.QuantizersOnResetOperand
  have code {i : Instr} {codec : Word → CodecResult} (hexec : ∀ s, exec i s = .next (s.quantized (codec s.qin)))
      {h : Code} (hcode : codec 0 = computed h) : exec i State.reset = .next { State.reset with qout := h } :=
    exec_of_computed hexec hcode State.reset rfl
  exact ⟨code (codec := sfx 0) (fun _ => rfl) (by decide), code (codec := sfx 8) (fun _ => rfl) (by decide),
    code (codec := sfx 12) (fun _ => rfl) (by decide), code (codec := ufx 0) (fun _ => rfl) (by decide),
    code (codec := ufx 8) (fun _ => rfl) (by decide), code (codec := ufx 12) (fun _ => rfl) (by decide),
    code (codec := uflt) (fun _ => rfl) (by decide), code (codec := sflt) (fun _ => rfl) (by decide)⟩

/-! The commands with the pseudocode's codecs -/

@[simp] theorem State.quantized_qout (s : State) (r : CodecResult) : (s.quantized r).qout = r.code := rfl
@[simp] theorem State.quantized_status (s : State) (r : CodecResult) :
    (s.quantized r).status = statusBits false r.nan r.sat := rfl
@[simp] theorem State.quantized_sat (s : State) (r : CodecResult) : (s.quantized r).sat = r.sat := State.sat_eq rfl

theorem exec_qsfx {i : Instr} (hi : i ∈ [Instr.qsfxS0, .qsfxS8, .qsfxS12]) :
    ∃ k, ∀ s, exec i s = .next (s.quantized (sfxSpec k s.qin)) := by
  simp only [← sfx_eq_sfxSpec]
  simp only [List.mem_cons, List.not_mem_nil, or_false] at hi
  obtain rfl | rfl | rfl := hi
  exacts [⟨0, fun _ => rfl⟩, ⟨8, fun _ => rfl⟩, ⟨12, fun _ => rfl⟩]

theorem exec_qufx {i : Instr} (hi : i ∈ [Instr.qufxS0, .qufxS8, .qufxS12]) :
    ∃ k, ∀ s, exec i s = .next (s.quantized (ufxSpec k s.qin)) := by
  simp only [← ufx_eq_ufxSpec]
  simp only [List.mem_cons, List.not_mem_nil, or_false] at hi
  obtain rfl | rfl | rfl := hi
  exacts [⟨0, fun _ => rfl⟩, ⟨8, fun _ => rfl⟩, ⟨12, fun _ => rfl⟩]

theorem exec_quflt16 (s : State) : exec .quflt16 s = .next (s.quantized (ufltSpec s.qin)) :=
  uflt_eq_ufltSpec s.qin ▸ rfl

theorem exec_qsflt16 (s : State) : exec .qsflt16 s = .next (s.quantized (sfltSpec s.qin)) :=
  sflt_eq_sfltSpec s.qin ▸ rfl

/-! The fixed-point codecs (40_quantizer.md R93, R94) on each kind of operand -/

theorem sfxSpec_of_negInf {k : ℕ} {w : Word} (hw : f32Value w = some .negInf) : sfxSpec k w = saturated 0x8000 := by
  rw [sfxSpec, hw]
  rfl

theorem sfxSpec_of_posInf {k : ℕ} {w : Word} (hw : f32Value w = some .posInf) : sfxSpec k w = saturated 0x7FFF := by
  rw [sfxSpec, hw]
  rfl

theorem sfxSpec_of_fin {k : ℕ} {w : Word} {v : ℚ} (hw : f32Value w = some (.fin v)) :
    sfxSpec k w = saturateSigned (roundHalfUp (v * 2 ^ k)) := by
  rw [sfxSpec, hw]
  rfl

theorem ufxSpec_of_negInf {k : ℕ} {w : Word} (hw : f32Value w = some .negInf) : ufxSpec k w = saturated 0x0000 := by
  rw [ufxSpec, hw]
  rfl

theorem ufxSpec_of_posInf {k : ℕ} {w : Word} (hw : f32Value w = some .posInf) : ufxSpec k w = saturated 0xFFFF := by
  rw [ufxSpec, hw]
  rfl

theorem ufxSpec_of_fin {k : ℕ} {w : Word} {v : ℚ} (hw : f32Value w = some (.fin v)) :
    ufxSpec k w = saturateUnsigned (roundHalfUp (v * 2 ^ k)) := by
  rw [ufxSpec, hw]
  rfl

/-! Monotonicity (40_quantizer.md R100 (b)): the range tests clamp, and clamping and rounding are monotone. -/

theorem roundHalfUp_mono {x y : ℚ} (h : x ≤ y) : roundHalfUp x ≤ roundHalfUp y :=
  Int.floor_le_floor (by linarith)

theorem saturateSigned_code_toInt (r : ℤ) : (saturateSigned r).code.toInt = max (-32768) (min r 32767) := by
  obtain ⟨hr, heq⟩ | ⟨hr, heq⟩ | ⟨hlo, hhi, heq⟩ := saturateSigned_cases r <;> rw [heq]
  · rw [saturated_code, show (0x7FFF : Code).toInt = 32767 from rfl]
    omega
  · rw [saturated_code, show (0x8000 : Code).toInt = -32768 from rfl]
    omega
  · rw [computed_code, BitVec.toInt_ofInt_eq_self (by decide) (by omega) (by omega)]
    omega

theorem saturateUnsigned_code_toNat (r : ℤ) : (saturateUnsigned r).code.toNat = (min r 65535).toNat := by
  obtain ⟨hr, heq⟩ | ⟨hr, heq⟩ | ⟨hlo, hhi, heq⟩ := saturateUnsigned_cases r <;> rw [heq]
  · rw [saturated_code, show (0xFFFF : Code).toNat = 65535 from rfl]
    omega
  · rw [saturated_code, show (0x0000 : Code).toNat = 0 from rfl]
    omega
  · rw [computed_code, BitVec.toNat_ofInt]
    omega

theorem sfxSpec_mono {k : ℕ} {w w' : Word} {v v' : ExtRat} (hw : f32Value w = some v) (hw' : f32Value w' = some v')
    (h : v.le v') : (sfxSpec k w).code.toInt ≤ (sfxSpec k w').code.toInt := by
  cases v with
  | negInf =>
    rw [sfxSpec_of_negInf hw]
    exact BitVec.le_toInt _
  | posInf =>
    cases v' with
    | negInf | fin => exact h.elim
    | posInf => rw [sfxSpec_of_posInf hw, sfxSpec_of_posInf hw']
  | fin x =>
    cases v' with
    | negInf => exact h.elim
    | posInf =>
      rw [sfxSpec_of_posInf hw']
      exact BitVec.toInt_le
    | fin y =>
      have hxy : x ≤ y := h
      rw [sfxSpec_of_fin hw, sfxSpec_of_fin hw', saturateSigned_code_toInt, saturateSigned_code_toInt]
      have hround : roundHalfUp (x * 2 ^ k) ≤ roundHalfUp (y * 2 ^ k) := roundHalfUp_mono (by gcongr)
      omega

theorem ufxSpec_mono {k : ℕ} {w w' : Word} {v v' : ExtRat} (hw : f32Value w = some v) (hw' : f32Value w' = some v')
    (h : v.le v') : (ufxSpec k w).code.toNat ≤ (ufxSpec k w').code.toNat := by
  cases v with
  | negInf =>
    rw [ufxSpec_of_negInf hw]
    exact Nat.zero_le _
  | posInf =>
    cases v' with
    | negInf | fin => exact h.elim
    | posInf => rw [ufxSpec_of_posInf hw, ufxSpec_of_posInf hw']
  | fin x =>
    cases v' with
    | negInf => exact h.elim
    | posInf =>
      rw [ufxSpec_of_posInf hw']
      exact Nat.le_of_lt_succ (BitVec.isLt _)
    | fin y =>
      have hxy : x ≤ y := h
      rw [ufxSpec_of_fin hw, ufxSpec_of_fin hw', saturateUnsigned_code_toNat, saturateUnsigned_code_toNat]
      have hround : roundHalfUp (x * 2 ^ k) ≤ roundHalfUp (y * 2 ^ k) := roundHalfUp_mono (by gcongr)
      omega

/-- Settles O30: the codecs are monotone, and each command transports one of them. -/
theorem fixedPointCodecsMonotone : Obligations.FixedPointCodecsMonotone := by
  unfold Obligations.FixedPointCodecsMonotone
  refine fun s t v v' hs ht hle => ⟨fun i hi => ?_, fun i hi => ?_⟩
  · obtain ⟨k, hexec⟩ := exec_qsfx hi
    exact ⟨_, _, hexec s, hexec t, sfxSpec_mono hs ht hle⟩
  · obtain ⟨k, hexec⟩ := exec_qufx hi
    exact ⟨_, _, hexec s, hexec t, ufxSpec_mono hs ht hle⟩

/-! The ranges without saturation (40_quantizer.md R98) -/

theorem saturateSigned_sat_eq_false (r : ℤ) : (saturateSigned r).sat = false ↔ -32768 ≤ r ∧ r ≤ 32767 := by
  obtain ⟨hr, heq⟩ | ⟨hr, heq⟩ | ⟨hlo, hhi, heq⟩ := saturateSigned_cases r <;> rw [heq]
  · exact iff_of_false (by simp) (by omega)
  · exact iff_of_false (by simp) (by omega)
  · exact iff_of_true rfl ⟨hlo, hhi⟩

/-- An integer is at most the rounded value when it is at most half above the value. -/
theorem le_roundHalfUp_iff {r : ℤ} {x : ℚ} : r ≤ roundHalfUp x ↔ r ≤ x + 1 / 2 := Int.le_floor

theorem roundHalfUp_lt_iff {r : ℤ} {x : ℚ} : roundHalfUp x < r ↔ x + 1 / 2 < r := Int.floor_lt

theorem sfxSpec_sat_eq_false {k : ℕ} {w : Word} {v : ℚ} (hw : f32Value w = some (.fin v)) :
    (sfxSpec k w).sat = false ↔ -32768.5 ≤ v * 2 ^ k ∧ v * 2 ^ k < 32767.5 := by
  rw [sfxSpec_of_fin hw, saturateSigned_sat_eq_false, le_roundHalfUp_iff, ← Int.lt_add_one_iff, roundHalfUp_lt_iff]
  norm_num
  constructor <;> rintro ⟨hlo, hhi⟩ <;> constructor <;> linarith

/-- Settles O31: the bounds on the scaled value, divided by the scale. -/
theorem domainScalerRanges : Obligations.DomainScalerRanges := by
  unfold Obligations.DomainScalerRanges
  intro s v hv
  obtain ⟨hexec, -⟩ := qsfxQuantizesExactly
  obtain ⟨-, hS8, hS12⟩ := hexec s
  refine ⟨⟨_, hS12, ?_⟩, ⟨_, hS8, ?_⟩⟩
  all_goals
    rw [State.quantized_sat, sfxSpec_sat_eq_false hv]
    constructor <;> rintro ⟨hlo, hhi⟩ <;> constructor <;> linarith

/-! The compact-float core (40_quantizer.md R95) of a value below 1 -/

/-- The exponent field before the carry: a negative rebiased exponent is clamped. -/
theorem clamp_eq_max (x : ℤ) : (if x < 0 then 0 else x) = max x 0 := by
  split_ifs <;> omega

/-- Where the rounded fraction reaches the field width, it carries into the exponent. -/
theorem cfSpec_of_carry {fb : ℕ} {a : ℚ} (h : 2 ^ fb ≤ roundHalfUp (decompMantissa a * 2 ^ fb)) :
    cfSpec fb a = if 0 ≤ decompExp a then none else some (max (decompExp a + 15) 0 + 1, 2 ^ (fb - 1)) := by
  simp only [cfSpec, ge_iff_le, h, if_true, clamp_eq_max]
  exact if_congr (by omega) rfl rfl

/-- Without a carry the exponent of a value below 1 is in range. -/
theorem cfSpec_of_no_carry {fb : ℕ} {a : ℚ} (he : decompExp a ≤ 0)
    (h : roundHalfUp (decompMantissa a * 2 ^ fb) < 2 ^ fb) :
    cfSpec fb a = some (max (decompExp a + 15) 0, roundHalfUp (decompMantissa a * 2 ^ fb)) := by
  simp only [cfSpec, ge_iff_le, not_le.mpr h, if_false, clamp_eq_max]
  exact if_neg (by omega)

/-- The fraction carries from half a unit of its last place below 1 on. -/
theorem carry_iff {fb : ℕ} {m : ℚ} : 2 ^ fb ≤ roundHalfUp (m * 2 ^ fb) ↔ 1 - 1 / 2 ^ (fb + 1) ≤ m := by
  have hpow : (0 : ℚ) < 2 ^ fb := by positivity
  have hhalf : (1 - 1 / 2 ^ (fb + 1)) * 2 ^ fb = (2 : ℚ) ^ fb - 1 / 2 := by
    rw [pow_succ]
    field_simp
  rw [← mul_le_mul_iff_left₀ hpow, hhalf, sub_le_iff_le_add, le_roundHalfUp_iff, Int.cast_pow, Int.cast_ofNat]

/-- A value below 1 has exponent 0 from 1/2 on, and then it is its own mantissa. -/
theorem decompMantissa_of_exp_zero {a : ℚ} (h : decompExp a = 0) : decompMantissa a = a := by
  rw [decompMantissa, h, neg_zero, zpow_zero, mul_one]

/-- The core overflows only by a carry at exponent 0 (40_quantizer.md R95 (a)). -/
theorem cfSpec_eq_none_iff {fb : ℕ} {a : ℚ} (h0 : 0 ≤ a) (h1 : a < 1) :
    cfSpec fb a = none ↔ 1 - 1 / 2 ^ (fb + 1) ≤ a := by
  have he : decompExp a ≤ 0 := decompExp_nonpos h0 h1
  constructor
  · intro h
    by_cases hcarry : 2 ^ fb ≤ roundHalfUp (decompMantissa a * 2 ^ fb)
    · rw [cfSpec_of_carry hcarry, ite_eq_left_iff] at h
      have he0 : decompExp a = 0 := by
        by_contra hne
        exact Option.some_ne_none _ (h (by omega))
      rwa [carry_iff, decompMantissa_of_exp_zero he0] at hcarry
    · rw [cfSpec_of_no_carry he (not_le.mp hcarry)] at h
      contradiction
  · intro h
    have hsmall : (1 : ℚ) / 2 ^ (fb + 1) ≤ 1 / 2 :=
      one_div_le_one_div_of_le two_pos (by exact_mod_cast Nat.le_self_pow (Nat.succ_ne_zero fb) 2)
    have hge : 0 ≤ decompExp a := by
      rw [le_decompExp_iff (by linarith), zero_sub, zpow_neg_one]
      linarith
    have he0 : decompExp a = 0 := le_antisymm he hge
    rw [cfSpec_of_carry (carry_iff.mpr ((decompMantissa_of_exp_zero he0).symm ▸ h)), if_pos hge]

/-- The fields the core answers fit their places. -/
theorem cfSpec_range {fb : ℕ} {a : ℚ} (hfb : 0 < fb) (h0 : 0 ≤ a) (h1 : a < 1) {ex F : ℤ}
    (h : cfSpec fb a = some (ex, F)) : 0 ≤ ex ∧ ex < 16 ∧ 0 ≤ F ∧ F < 2 ^ fb := by
  have he : decompExp a ≤ 0 := decompExp_nonpos h0 h1
  by_cases hcarry : 2 ^ fb ≤ roundHalfUp (decompMantissa a * 2 ^ fb)
  · have hhalf : (2 : ℤ) ^ (fb - 1) < 2 ^ fb := pow_lt_pow_right₀ one_lt_two (by omega)
    rw [cfSpec_of_carry hcarry] at h
    split_ifs at h
    simp only [Option.some.injEq, Prod.mk.injEq] at h
    obtain ⟨rfl, rfl⟩ := h
    exact ⟨by omega, by omega, by positivity, hhalf⟩
  · have hm : 0 ≤ decompMantissa a := mul_nonneg h0 (zpow_nonneg zero_le_two _)
    have hF : 0 ≤ roundHalfUp (decompMantissa a * 2 ^ fb) := by
      rw [le_roundHalfUp_iff]
      positivity
    rw [cfSpec_of_no_carry he (not_le.mp hcarry)] at h
    simp only [Option.some.injEq, Prod.mk.injEq] at h
    obtain ⟨rfl, rfl⟩ := h
    exact ⟨by omega, by omega, hF, not_le.mp hcarry⟩

/-- Doubling moves the exponent by one and leaves the mantissa. -/
theorem isDecomp_double {a : ℚ} (ha : 0 < a) : IsDecomp (2 * a) (decompMantissa a) (decompExp a + 1) := by
  obtain ⟨rfl, -⟩ | ⟨-, hlo, hhi, heq⟩ := isDecomp_reference ha.le
  · exact absurd ha (lt_irrefl 0)
  · refine .inr ⟨by linarith, hlo, hhi, ?_⟩
    calc 2 * a = 2 * (decompMantissa a * 2 ^ decompExp a) := by rw [← heq]
      _ = decompMantissa a * 2 ^ (decompExp a + 1) := by rw [zpow_add_one₀ two_ne_zero]; ring

/-- Below 2^-16 the clamp loses the scale (40_quantizer.md R95 (b)). -/
theorem cfSpec_double {a : ℚ} (fb : ℕ) (h0 : 0 ≤ a) (h1 : a < 1 / 2 ^ 16) : cfSpec fb (2 * a) = cfSpec fb a := by
  obtain rfl | hpos := h0.eq_or_lt
  · rw [mul_zero]
  · obtain ⟨hm, he⟩ := (isDecomp_double hpos).eq_reference
    have hexp : decompExp a ≤ -16 := by
      rw [decompExp_le_iff hpos]
      norm_num at h1 ⊢
      exact h1
    have hclamp : max (decompExp a + 1 + 15) 0 = max (decompExp a + 15) 0 := by omega
    simp only [cfSpec, ← hm, ← he, clamp_eq_max, hclamp]

/-! The magnitude of a compact float: R95's fields packed, saturating at the top code from 1 up and on overflow -/

/-- What QUFLT16 (with `fb` = 12) and, up to the sign, QSFLT16 (with `fb` = 11) answer on the magnitude `a`. -/
def compact (fb : ℕ) (top : Code) (a : ℚ) : CodecResult :=
  if 1 ≤ a then saturated top
  else
    match cfSpec fb a with
    | none => saturated top
    | some (ex, F) => computed (BitVec.ofInt 16 ex <<< fb ||| BitVec.ofInt 16 F)

theorem compact_of_one_le {fb : ℕ} {top : Code} {a : ℚ} (h : 1 ≤ a) : compact fb top a = saturated top := if_pos h

theorem compact_of_none {fb : ℕ} {top : Code} {a : ℚ} (h : cfSpec fb a = none) :
    compact fb top a = saturated top := by
  rw [compact, h, ite_self]

theorem compact_of_some {fb : ℕ} {top : Code} {a : ℚ} (h1 : a < 1) {ex F : ℤ} (h : cfSpec fb a = some (ex, F)) :
    compact fb top a = computed (BitVec.ofInt 16 ex <<< fb ||| BitVec.ofInt 16 F) := by
  rw [compact, if_neg (not_le.mpr h1), h]

theorem compact_nan (fb : ℕ) (top : Code) (a : ℚ) : (compact fb top a).nan = false := by
  unfold compact
  split_ifs
  · rfl
  · split <;> rfl

theorem compact_sat_iff {fb : ℕ} {top : Code} {a : ℚ} (h0 : 0 ≤ a) :
    (compact fb top a).sat = true ↔ 1 - 1 / 2 ^ (fb + 1) ≤ a := by
  by_cases h1 : 1 ≤ a
  · have hpos : (0 : ℚ) < 1 / 2 ^ (fb + 1) := by positivity
    rw [compact_of_one_le h1]
    exact iff_of_true rfl (by linarith)
  · rw [← cfSpec_eq_none_iff h0 (not_le.mp h1)]
    cases hcf : cfSpec fb a with
    | none => exact iff_of_true (by rw [compact_of_none hcf, saturated_sat]) rfl
    | some c =>
      obtain ⟨ex, F⟩ := c
      exact iff_of_false (by simp [compact_of_some (not_le.mp h1) hcf]) (Option.some_ne_none _)

theorem compact_double {a : ℚ} (fb : ℕ) (top : Code) (h0 : 0 ≤ a) (h1 : a < 1 / 2 ^ 16) :
    compact fb top (2 * a) = compact fb top a := by
  have hlt : a < 1 := h1.trans (by norm_num)
  have hlt' : 2 * a < 1 := by
    norm_num at h1
    linarith
  rw [compact, compact, if_neg (not_le.mpr hlt'), if_neg (not_le.mpr hlt), cfSpec_double fb h0 h1]

theorem compact_of_carry_exp_neg {fb : ℕ} {top : Code} {a : ℚ} (h1 : a < 1) (he : decompExp a < 0)
    (hcarry : roundHalfUp (decompMantissa a * 2 ^ fb) = 2 ^ fb) :
    compact fb top a =
      computed (BitVec.ofInt 16 (max (decompExp a + 15) 0 + 1) <<< fb ||| BitVec.ofInt 16 (2 ^ (fb - 1))) :=
  compact_of_some h1 (by rw [cfSpec_of_carry hcarry.ge, if_neg (not_le.mpr he)])

theorem compact_of_carry_exp_nonneg {fb : ℕ} {top : Code} {a : ℚ} (he : ¬decompExp a < 0)
    (hcarry : roundHalfUp (decompMantissa a * 2 ^ fb) = 2 ^ fb) : compact fb top a = saturated top :=
  compact_of_none (by rw [cfSpec_of_carry hcarry.ge, if_pos (not_lt.mp he)])

/-! The two codecs on each kind of operand -/

theorem ufltSpec_of_negInf {w : Word} (hw : f32Value w = some .negInf) : ufltSpec w = saturated 0x0000 := by
  rw [ufltSpec, hw]
  rfl

theorem ufltSpec_of_posInf {w : Word} (hw : f32Value w = some .posInf) : ufltSpec w = saturated 0xFFFF := by
  rw [ufltSpec, hw]
  rfl

theorem sfltSpec_of_negInf {w : Word} (hw : f32Value w = some .negInf) : sfltSpec w = saturated 0xFFFF := by
  rw [sfltSpec, hw]
  rfl

theorem sfltSpec_of_posInf {w : Word} (hw : f32Value w = some .posInf) : sfltSpec w = saturated 0x7FFF := by
  rw [sfltSpec, hw]
  rfl

/-- Bit 15 of a QSFLT16 code (40_quantizer.md R97). -/
def signBit (neg : Bool) : Code := if neg then 0x8000 else 0x0000

/-- A magnitude's result with the sign in bit 15. -/
def CodecResult.withSign (r : CodecResult) (neg : Bool) : CodecResult := { r with code := signBit neg ||| r.code }

theorem ufltSpec_of_neg {w : Word} {v : ℚ} (hw : f32Value w = some (.fin v)) (hv : v < 0) :
    ufltSpec w = saturated 0x0000 := by
  rw [ufltSpec, hw]
  exact if_pos hv

theorem ufltSpec_of_nonneg {w : Word} {v : ℚ} (hw : f32Value w = some (.fin v)) (hv : 0 ≤ v) :
    ufltSpec w = compact 12 0xFFFF v := by
  rw [ufltSpec, hw]
  exact if_neg (not_lt.mpr hv)

theorem signBit_decide (p : Prop) [Decidable p] : signBit (decide p) = if p then 0x8000 else 0x0000 := by
  by_cases h : p <;> simp [signBit, h]

theorem sfltSpec_of_fin {w : Word} {v : ℚ} (hw : f32Value w = some (.fin v)) :
    sfltSpec w = (compact 11 0x7FFF |v|).withSign (decide (v < 0)) := by
  rw [sfltSpec, hw]
  dsimp only
  by_cases hlo : v ≤ -1
  · have hneg : v < 0 := by linarith
    rw [if_pos hlo, compact_of_one_le (le_abs.mpr (.inr (by linarith))), decide_eq_true hneg]
    rfl
  by_cases hhi : 1 ≤ v
  · have hpos : ¬v < 0 := by linarith
    rw [if_neg hlo, if_pos hhi, compact_of_one_le (le_abs.mpr (.inl hhi)), decide_eq_false hpos]
    rfl
  have habs : |v| < 1 := abs_lt.mpr ⟨not_le.mp hlo, not_le.mp hhi⟩
  rw [if_neg hlo, if_neg hhi]
  cases hcf : cfSpec 11 |v| with
  | none =>
    rw [compact_of_none hcf, CodecResult.withSign, signBit_decide, BitVec.or_comm]
    rfl
  | some c =>
    obtain ⟨ex, F⟩ := c
    rw [compact_of_some habs hcf, CodecResult.withSign, signBit_decide, computed_code, ← BitVec.or_assoc]
    rfl

/-! The laws of the compact floats -/

/-- Settles O32: a magnitude saturates from half a unit of its last place below 1 on. -/
theorem compactFloatSaturationThresholds : Obligations.CompactFloatSaturationThresholds := by
  unfold Obligations.CompactFloatSaturationThresholds
  intro s v hv
  refine ⟨⟨_, exec_quflt16 s, ?_⟩, ⟨_, exec_qsflt16 s, ?_⟩⟩ <;> rw [State.quantized_sat]
  · by_cases hneg : v < 0
    · rw [ufltSpec_of_neg hv hneg]
      exact iff_of_true rfl (.inl hneg)
    · rw [ufltSpec_of_nonneg hv (not_lt.mp hneg), compact_sat_iff (not_lt.mp hneg), or_iff_right hneg]
  · rw [sfltSpec_of_fin hv]
    exact compact_sat_iff (abs_nonneg v)

theorem ufltSpec_double {w w' : Word} {v : ℚ} (hw : f32Value w = some (.fin v))
    (hw' : f32Value w' = some (.fin (2 * v))) (hv : |v| < 1 / 2 ^ 16) : ufltSpec w' = ufltSpec w := by
  by_cases hneg : v < 0
  · rw [ufltSpec_of_neg hw hneg, ufltSpec_of_neg hw' (by linarith)]
  · have h0 : 0 ≤ v := not_lt.mp hneg
    rw [abs_of_nonneg h0] at hv
    rw [ufltSpec_of_nonneg hw h0, ufltSpec_of_nonneg hw' (by linarith), compact_double _ _ h0 hv]

theorem sfltSpec_double {w w' : Word} {v : ℚ} (hw : f32Value w = some (.fin v))
    (hw' : f32Value w' = some (.fin (2 * v))) (hv : |v| < 1 / 2 ^ 16) : sfltSpec w' = sfltSpec w := by
  have hneg : 2 * v < 0 ↔ v < 0 := ⟨fun h => by linarith, fun h => by linarith⟩
  rw [sfltSpec_of_fin hw, sfltSpec_of_fin hw', abs_mul, abs_two, compact_double _ _ (abs_nonneg v) hv,
    decide_eq_decide.mpr hneg]

/-- Settles O33: the two codecs answer the same on v and 2v. -/
theorem exponentClampLosesScale : Obligations.ExponentClampLosesScale := by
  unfold Obligations.ExponentClampLosesScale
  intro s t v hs ht hv i hi
  simp only [List.mem_cons, List.not_mem_nil, or_false] at hi
  obtain rfl | rfl := hi
  · refine ⟨_, _, exec_quflt16 s, exec_quflt16 t, ?_, ?_⟩ <;>
      simp only [State.quantized_qout, State.quantized_status, ufltSpec_double hs ht hv]
  · refine ⟨_, _, exec_qsflt16 s, exec_qsflt16 t, ?_, ?_⟩ <;>
      simp only [State.quantized_qout, State.quantized_status, sfltSpec_double hs ht hv]

/-! At and beyond the bounds (40_quantizer.md R101 (a), (b)) -/

theorem ufltSpec_code_of_lt_zero {w : Word} {v : ExtRat} (hw : f32Value w = some v) (hv : ¬(ExtRat.fin 0).le v) :
    (ufltSpec w).code = 0x0000 := by
  cases v with
  | negInf => rw [ufltSpec_of_negInf hw, saturated_code]
  | fin x =>
    have hx : x < 0 := not_le.mp hv
    rw [ufltSpec_of_neg hw hx, saturated_code]
  | posInf => exact absurd trivial hv

theorem ufltSpec_code_of_one_le {w : Word} {v : ExtRat} (hw : f32Value w = some v) (hv : (ExtRat.fin 1).le v) :
    (ufltSpec w).code = 0xFFFF := by
  cases v with
  | negInf => exact hv.elim
  | fin x =>
    have hx : 1 ≤ x := hv
    rw [ufltSpec_of_nonneg hw (by linarith), compact_of_one_le hx, saturated_code]
  | posInf => rw [ufltSpec_of_posInf hw, saturated_code]

theorem sfltSpec_code_of_le_neg_one {w : Word} {v : ExtRat} (hw : f32Value w = some v) (hv : v.le (.fin (-1))) :
    (sfltSpec w).code = 0xFFFF := by
  cases v with
  | negInf => rw [sfltSpec_of_negInf hw, saturated_code]
  | fin x =>
    have hx : x ≤ -1 := hv
    rw [sfltSpec_of_fin hw, compact_of_one_le (le_abs.mpr (.inr (by linarith))), decide_eq_true (by linarith)]
    rfl
  | posInf => exact hv.elim

theorem sfltSpec_code_of_one_le {w : Word} {v : ExtRat} (hw : f32Value w = some v) (hv : (ExtRat.fin 1).le v) :
    (sfltSpec w).code = 0x7FFF := by
  cases v with
  | negInf => exact hv.elim
  | fin x =>
    have hx : 1 ≤ x := hv
    rw [sfltSpec_of_fin hw, compact_of_one_le (le_abs.mpr (.inl hx)), decide_eq_false (by linarith)]
    rfl
  | posInf => rw [sfltSpec_of_posInf hw, saturated_code]

/-- Settles O34: the codes at the bounds, transported. -/
theorem compactFloatBounds : Obligations.CompactFloatBounds := by
  unfold Obligations.CompactFloatBounds
  intro s v hs
  exact ⟨fun hv => ⟨_, exec_quflt16 s, ufltSpec_code_of_lt_zero hs hv⟩,
    fun hv => ⟨_, exec_quflt16 s, ufltSpec_code_of_one_le hs hv⟩,
    fun hv => ⟨_, exec_qsflt16 s, sfltSpec_code_of_le_neg_one hs hv⟩,
    fun hv => ⟨_, exec_qsflt16 s, sfltSpec_code_of_one_le hs hv⟩⟩

/-! The carry (40_quantizer.md R101 (c)) -/

/-- The fields of a QUFLT16 code whose fraction is its top bit, for each exponent. -/
theorem uflt_carry_fields : ∀ n : Fin 16,
    ((BitVec.ofInt 16 n <<< 12 ||| BitVec.ofInt 16 (2 ^ 11)).extractLsb' 12 4).toNat = (n : ℤ) ∧
      (BitVec.ofInt 16 n <<< 12 ||| BitVec.ofInt 16 (2 ^ 11)).extractLsb' 0 12 = 0x800 := by
  decide

/-- The fields of a QSFLT16 code whose fraction is its top bit, for each sign and exponent. -/
theorem sflt_carry_fields : ∀ (neg : Bool) (n : Fin 16),
    let code := signBit neg ||| (BitVec.ofInt 16 n <<< 11 ||| BitVec.ofInt 16 (2 ^ 10))
    code.getLsbD 15 = neg ∧ (code.extractLsb' 11 4).toNat = (n : ℤ) ∧ code.extractLsb' 0 11 = 0x400 := by
  decide

theorem sflt_top_fields : ∀ neg : Bool,
    (signBit neg ||| 0x7FFF).getLsbD 15 = neg ∧ (signBit neg ||| 0x7FFF).extractLsb' 0 15 = 0x7FFF := by
  decide

/-- The exponent after a carry below exponent 15 fits its field. -/
theorem carried_exponent {e : ℤ} (he : e < 0) : ∃ n : Fin 16, max (e + 15) 0 + 1 = n :=
  ⟨⟨(max (e + 15) 0 + 1).toNat, by omega⟩, (Int.toNat_of_nonneg (by omega)).symm⟩

/-- Settles O35: below exponent 0 the carry raises the exponent, and at 0 it overflows. -/
theorem compactFloatCarry : Obligations.CompactFloatCarry := by
  unfold Obligations.CompactFloatCarry
  refine ⟨fun s v hs h0 h1 hcarry => ⟨_, exec_quflt16 s, ?_⟩, fun s v hs h0 h1 hcarry => ⟨_, exec_qsflt16 s, ?_⟩⟩
  · rw [State.quantized_qout, State.quantized_sat, ufltSpec_of_nonneg hs h0.le]
    split_ifs with he
    · obtain ⟨n, hn⟩ := carried_exponent he
      rw [compact_of_carry_exp_neg h1 he hcarry, hn]
      obtain ⟨hexp, hfrac⟩ := uflt_carry_fields n
      exact ⟨hexp, hfrac, rfl⟩
    · rw [compact_of_carry_exp_nonneg he hcarry]
      exact ⟨rfl, rfl⟩
  · rw [State.quantized_qout, State.quantized_sat, sfltSpec_of_fin hs]
    split_ifs with he
    · obtain ⟨n, hn⟩ := carried_exponent he
      rw [compact_of_carry_exp_neg h1 he hcarry, hn]
      obtain ⟨hsign, hexp, hfrac⟩ := sflt_carry_fields (decide (v < 0)) n
      exact ⟨hsign, hexp, hfrac, rfl⟩
    · rw [compact_of_carry_exp_nonneg he hcarry]
      obtain ⟨hsign, hmag⟩ := sflt_top_fields (decide (v < 0))
      exact ⟨hsign, hmag, rfl⟩

/-! Sign and magnitude (40_quantizer.md R97): the sign bit of the operand is that of the code. -/

/-- The pattern of the negated value. -/
def flipSign (w : Word) : Word := w ^^^ 0x80000000

theorem f32Sign_flipSign (w : Word) : f32Sign (flipSign w) = !f32Sign w := by
  simp [f32Sign, flipSign]

theorem f32Exp_flipSign (w : Word) : f32Exp (flipSign w) = f32Exp w := by
  simp [f32Exp, flipSign, BitVec.extractLsb'_xor]

theorem f32Frac_flipSign (w : Word) : f32Frac (flipSign w) = f32Frac w := by
  simp [f32Frac, flipSign, BitVec.extractLsb'_xor]

/-- The negated extended rational. -/
def ExtRat.neg : ExtRat → ExtRat
  | .negInf => .posInf
  | .fin x => .fin (-x)
  | .posInf => .negInf

theorem f32Quanta_flipSign (w : Word) : f32Quanta (flipSign w) = -f32Quanta w := by
  rw [f32Quanta, f32Quanta, f32Magnitude, f32Exp_flipSign, f32Frac_flipSign, f32Sign_flipSign, ← f32Magnitude]
  cases f32Sign w <;> simp

theorem f32Value_flipSign (w : Word) : f32Value (flipSign w) = (f32Value w).map ExtRat.neg := by
  by_cases hexp : f32Exp w = 255
  · rw [f32Value, f32Value, f32Exp_flipSign, f32Frac_flipSign, f32Sign_flipSign]
    by_cases hfrac : f32Frac w = 0
    · cases f32Sign w <;> simp [hexp, hfrac, ExtRat.neg]
    · simp [hexp, hfrac]
  · rw [f32Value_of_finite hexp, f32Value_of_finite (by rwa [f32Exp_flipSign]), f32Quanta_flipSign]
    simp [ExtRat.neg, neg_div]

theorem exists_value_of_not_isNaN {w : Word} (h : isNaN w = false) : ∃ v, f32Value w = some v := by
  rw [f32Value_eq]
  cases hw : f32 w with
  | nan =>
    rw [f32_eq_nan.mp hw] at h
    contradiction
  | negInf | posInf | finite => exact ⟨_, rfl⟩

theorem f32Quanta_eq_zero_iff {w : Word} : f32Quanta w = 0 ↔ f32Magnitude w = 0 := by
  unfold f32Quanta
  split_ifs <;> simp

theorem f32Magnitude_eq_zero {w : Word} (h : f32Magnitude w = 0) : f32Exp w = 0 ∧ f32Frac w = 0 := by
  unfold f32Magnitude at h
  split_ifs at h with hexp
  · exact ⟨hexp, h⟩
  · simp at h

/-- Zero has the two patterns of 30_encoding.md R81. -/
theorem isZero_of_value_zero {w : Word} (h : f32Value w = some (.fin 0)) : isZero w = true := by
  by_cases hexp : f32Exp w = 255
  · by_cases hfrac : f32Frac w = 0 <;> cases hs : f32Sign w <;> simp [f32Value, hexp, hfrac, hs] at h
  · rw [f32Value_of_finite hexp] at h
    simp only [Option.some.injEq, ExtRat.fin.injEq, div_eq_zero_iff, Int.cast_eq_zero] at h
    have hmag : f32Magnitude w = 0 := f32Quanta_eq_zero_iff.mp (h.resolve_right (by norm_num))
    obtain ⟨he, hf⟩ := f32Magnitude_eq_zero hmag
    simp [isZero, he, hf]

/-- Below the sign bit a magnitude's code leaves bit 15 clear. -/
theorem compact_getLsbD_sign {a : ℚ} (h0 : 0 ≤ a) : (compact 11 0x7FFF a).code.getLsbD 15 = false := by
  by_cases h1 : 1 ≤ a
  · rw [compact_of_one_le h1]
    rfl
  cases hcf : cfSpec 11 a with
  | none =>
    rw [compact_of_none hcf]
    rfl
  | some c =>
    obtain ⟨ex, F⟩ := c
    obtain ⟨hex0, hex, hF0, hF⟩ := cfSpec_range (by decide) h0 (not_le.mp h1) hcf
    lift ex to ℕ using hex0
    lift F to ℕ using hF0
    have hexBit : ex.testBit 4 = false := Nat.testBit_lt_two_pow (by omega)
    have hFBit : F.testBit 15 = false := Nat.testBit_lt_two_pow (by omega)
    rw [compact_of_some (not_le.mp h1) hcf, computed_code, BitVec.ofInt_natCast, BitVec.ofInt_natCast]
    simp only [BitVec.getLsbD_or, BitVec.getLsbD_shiftLeft, BitVec.getLsbD_ofNat]
    simp [hexBit, hFBit]

theorem signBit_getLsbD : ∀ (neg : Bool) (i : Fin 16), (signBit neg).getLsbD i = (decide (i = 15) && neg) := by
  decide

/-- On a code that leaves bit 15 clear, the other sign is the sign flipped. -/
theorem signBit_not_or {code : Code} (h : code.getLsbD 15 = false) (neg : Bool) :
    signBit (!neg) ||| code = (signBit neg ||| code) ^^^ signBit true := by
  apply BitVec.eq_of_getLsbD_eq
  intro i hi
  lift i to Fin 16 using hi
  simp only [BitVec.getLsbD_or, BitVec.getLsbD_xor, signBit_getLsbD]
  by_cases h15 : i = 15
  · subst h15
    rw [show ((15 : Fin 16) : ℕ) = 15 from rfl, h]
    cases neg <;> rfl
  · simp [h15]

theorem sfltSpec_flipSign {w : Word} {v : ExtRat} (hw : f32Value w = some v) (hv : v ≠ .fin 0) :
    sfltSpec (flipSign w) = { sfltSpec w with code := (sfltSpec w).code ^^^ 0x8000 } := by
  have hw' : f32Value (flipSign w) = some v.neg := by rw [f32Value_flipSign, hw, Option.map_some]
  cases v with
  | negInf =>
    rw [sfltSpec_of_negInf hw, sfltSpec_of_posInf hw']
    rfl
  | posInf =>
    rw [sfltSpec_of_posInf hw, sfltSpec_of_negInf hw']
    rfl
  | fin x =>
    have hx : x ≠ 0 := fun h => hv (h ▸ rfl)
    have hsign : decide (-x < 0) = !decide (x < 0) := by
      rw [← decide_not, decide_eq_decide, neg_lt_zero, not_lt]
      exact ⟨le_of_lt, fun h => h.lt_of_ne' hx⟩
    rw [sfltSpec_of_fin hw, sfltSpec_of_fin hw', abs_neg, hsign, CodecResult.withSign, CodecResult.withSign,
      signBit_not_or (compact_getLsbD_sign (abs_nonneg x))]
    rfl

/-- Settles O36: the codec answers the flipped pattern with the flipped code and the same flags. -/
theorem signedCompactFloatIsSignMagnitude : Obligations.SignedCompactFloatIsSignMagnitude := by
  unfold Obligations.SignedCompactFloatIsSignMagnitude
  intro s hnan hzero
  obtain ⟨v, hv⟩ := exists_value_of_not_isNaN hnan
  have hv0 : v ≠ .fin 0 := fun h => by
    rw [isZero_of_value_zero (h ▸ hv)] at hzero
    contradiction
  have hflip : sfltSpec (s.qin ^^^ 0x80000000) = _ := sfltSpec_flipSign hv hv0
  refine ⟨_, _, exec_qsflt16 s, exec_qsflt16 _, ?_, ?_⟩
  · rw [State.quantized_qout, State.quantized_qout, State.setQin_qin, hflip]
  · rw [State.quantized_status, State.quantized_status, State.setQin_qin, hflip]

end Sys2Proof.Machine

/-! The obligation of 41_buffer_encoder.md R121 about the order of the machine's states. -/

namespace Sys2Proof.Machine

/-- The table of 41_buffer_encoder.md R121 as a function on the machine's states. -/
def BuildState.next : BuildState → BuildState
  | .idle => .idle
  | .tag => .placeholder
  | .placeholder => .field0
  | .field0 => .field1
  | .field1 => .field2
  | .field2 => .field3
  | .field3 => .patch
  | .patch => .done
  | .done => .idle

/-- A row of transitions walks along the table, whatever the rest of the state. -/
theorem buildTransitions_bs (k : ℕ) (s : State) :
    (buildTransitions k s).build.bs = BuildState.next^[k] s.build.bs := by
  induction k generalizing s with
  | zero => rfl
  | succ k ih =>
    rw [buildTransitions, ih, buildTransition_bs]
    rfl

/-- Settles O38: the table walked from TAG. -/
theorem buildMachineStateOrder : Obligations.BuildMachineStateOrder := by
  unfold Obligations.BuildMachineStateOrder
  intro s
  simp only [buildTransitions_bs]
  rfl

end Sys2Proof.Machine
